-- ==== Sys2Proof/Word.lean ====
section
/-! DEFINITION. The word types of the block: data bytes (00_scope.md R5, 20_memory.md R29), the caller's
descriptor word and the result word (30_encoding.md R52, R57). Byte arithmetic is BitVec arithmetic, which is
modulo 256 as 00_scope.md R6 asks. -/

namespace Sys2Proof

/-- A byte: data, length, checksum, opcode, status and direction values are all this wide (R5). -/
abbrev Byte := BitVec 8

/-- The 32-bit descriptor word the caller presents on the command interface (R52). -/
abbrev Descriptor := BitVec 32

/-- The 16-bit two's-complement result word `RES` (R57). -/
abbrev ResultWord := BitVec 16

end Sys2Proof
end

