-- ==== Sys2Proof/Syntax.lean ====
section
/-! DEFINITION. The six operations of spec/opcode_table.json (30_encoding.md R54), one constructor per row, with the
operand fields of R53. -/

namespace Sys2Proof

/-- An operation the caller can issue (R9, R54). Operands keep the width of their descriptor field (R53). -/
inductive Instr where
  /-- IS_READY: one status query (40_ready_poller.md R61). -/
  | isReady
  /-- WRITE_FRAME: send the `n` bytes of CMD as a command envelope (41_frame_encode.md R67). -/
  | writeFrame (n : BitVec 8)
  /-- WRITE_COMMAND: send a frame, poll, read the acknowledgment (42_command_cycle.md R76). -/
  | writeCommand (n : BitVec 8)
  /-- READ_ACK: read six bytes and compare them with the ACK constant (42_command_cycle.md R74). -/
  | readAck
  /-- READ_RESPONSE: poll within budget `t`, then parse one response frame into `cap` bytes of RBUF
  (43_response_parser.md R81). -/
  | readResponse (cap : BitVec 8) (t : BitVec 16)
  /-- WAKE: the bus capability's wake sequence (70_reset_and_hazards.md R120). -/
  | wake
  deriving DecidableEq, Repr

end Sys2Proof
end

