-- ==== Sys2Proof/WellFormed.lean ====
section
/-! DEFINITION. Which operands an operation admits (30_encoding.md R56). -/

namespace Sys2Proof

/-- R56: WRITE_FRAME takes `N` = 0..254, WRITE_COMMAND `N` = 1..254; every `CAP` and every `T` is admitted, and the
other operations have no operand. -/
def Instr.wellFormed : Instr → Bool
  | .isReady => true
  | .writeFrame n => n != 255#8
  | .writeCommand n => n != 0#8 && n != 255#8
  | .readAck => true
  | .readResponse _ _ => true
  | .wake => true

end Sys2Proof
end

