-- ==== Sys2Proof/Decode.lean ====
section
/-! DEFINITION. The decoder of descriptor words, total on all 2^32 words, and the encoder written from the same table
(30_encoding.md R53 to R56, opcode_table.json). A descriptor is one word on the command interface, not bytes in a
memory, so no byte order enters. -/

namespace Sys2Proof

/-- Why a descriptor is refused at issue (60_exceptions.md R105). -/
inductive DecodeError where
  /-- Reserved `OPSEL`, or a field that must be 0 is not (R55). -/
  | badDescriptor
  /-- An operand outside the operation's range (R56). -/
  | badOperand
  deriving DecidableEq, Repr

/-- `OPSEL`, descriptor bits 7:0 (R53). -/
def opselOf (w : Descriptor) : BitVec 8 := w.extractLsb' 0 8

/-- `A8`, descriptor bits 15:8: `N` or `CAP` (R53). -/
def a8Of (w : Descriptor) : BitVec 8 := w.extractLsb' 8 8

/-- `A16`, descriptor bits 31:16: `T` (R53). -/
def a16Of (w : Descriptor) : BitVec 16 := w.extractLsb' 16 16

/-- Keep the operation if its operands are in range, else refuse it `BadOperand` (R56). -/
def inRange (i : Instr) : Except DecodeError Instr :=
  if i.wellFormed then .ok i else .error .badOperand

/-- The operation `i` if the fields R53 wants to be 0 are 0 (`zero`), else `BadDescriptor` (R55). The descriptor's form
is judged before its operand range; log entry 12. -/
def reservedZero (zero : Bool) (i : Instr) : Except DecodeError Instr :=
  if zero then inRange i else .error .badDescriptor

/-- The operation a descriptor word stands for, or the reason it is refused (R53 to R56). -/
def decode (w : Descriptor) : Except DecodeError Instr :=
  if opselOf w = 0x11#8 then reservedZero (a8Of w == 0#8 && a16Of w == 0#16) .isReady
  else if opselOf w = 0x21#8 then reservedZero (a16Of w == 0#16) (.writeFrame (a8Of w))
  else if opselOf w = 0x22#8 then reservedZero (a16Of w == 0#16) (.writeCommand (a8Of w))
  else if opselOf w = 0x31#8 then reservedZero (a8Of w == 0#8 && a16Of w == 0#16) .readAck
  else if opselOf w = 0x32#8 then inRange (.readResponse (a8Of w) (a16Of w))
  else if opselOf w = 0x41#8 then reservedZero (a8Of w == 0#8 && a16Of w == 0#16) .wake
  else .error .badDescriptor

/-- A descriptor from its three fields (R53). -/
def descriptorOf (a16 : BitVec 16) (a8 opsel : BitVec 8) : Descriptor := a16 ++ a8 ++ opsel

/-- The descriptor word of an operation (R54). -/
def encode : Instr → Descriptor
  | .isReady => descriptorOf 0 0 0x11
  | .writeFrame n => descriptorOf 0 n 0x21
  | .writeCommand n => descriptorOf 0 n 0x22
  | .readAck => descriptorOf 0 0 0x31
  | .readResponse cap t => descriptorOf t cap 0x32
  | .wake => descriptorOf 0 0 0x41

/-- The descriptor word whose lowest `nbits` bits are those of `w` and whose other bits are 0. -/
def tableWord (nbits w : Nat) : Nat := w % 2 ^ nbits

/-- What the decoder reads from an opcode-table word of `nbits` bits. A number that needs more than the 32 bits of a
descriptor is none. -/
def decodeTableWord (nbits w : Nat) : Option Instr :=
  if tableWord nbits w < 2 ^ 32 then
    match decode (BitVec.ofNat 32 (tableWord nbits w)) with
    | .ok i => some i
    | .error _ => none
  else none

end Sys2Proof
end

