-- ==== Sys2Proof/Config.lean ====
section
/-! DEFINITION. What an implementation fixes and what the spec leaves open: the free draws of the bus peer
(20_memory.md R33) and the open hold durations (00_scope.md R5). The opaque constants have no body: no proof can learn a
value of theirs. -/

namespace Sys2Proof

/-- FREE VALUE (log entry 1). The byte the bus peer answers to draw number `n` of the run, where the run's environment
has not already fixed it (`State.peer`). R33: a free draw, with no law relating it to earlier events. -/
opaque Config.peerByte : Nat → Byte

/-- FREE VALUE (log entry 2). `T_WAKEUP` less one nanosecond. -/
opaque Config.wakeupBeyondOne : Nat

/-- FREE VALUE (log entry 2). `T_SETTLE` less one nanosecond. -/
opaque Config.settleBeyondOne : Nat

/-- FREE VALUE (log entry 2). `T_WAKE` less one nanosecond. -/
opaque Config.wakeBeyondOne : Nat

/-- `T_WAKEUP` in nanoseconds: OPEN, a duration > 0 (R5). -/
def Config.tWakeup : Nat := Config.wakeupBeyondOne + 1

/-- `T_SETTLE` in nanoseconds: OPEN, a duration > 0 (R5). -/
def Config.tSettle : Nat := Config.settleBeyondOne + 1

/-- `T_WAKE` in nanoseconds: OPEN, a duration > 0 (R5). -/
def Config.tWake : Nat := Config.wakeBeyondOne + 1

/-- The time unit of `Sleep(1)`, one millisecond (R5, decision D16), in nanoseconds. -/
def Config.timeUnit : Nat := 1000000

/-- The default of the constructor parameter `ACK_RETRIES` (R5). -/
def Config.defaultAckRetries : Nat := 10

/-- What a byte of CMD or RBUF that no cell lists reads as. DESIGN CHOICE, log entry 4. -/
def Config.unlistedByte : Byte := 0#8

end Sys2Proof
end

