-- ==== Sys2Proof/Machine/State.lean ====
section
/-! DEFINITION. The machine's state as plain data, the reasons a step can stop, and the state after reset
(10_state.md, 20_memory.md, 60_exceptions.md section 2, 70_reset_and_hazards.md section 1). -/

namespace Sys2Proof.Machine

/-- The sequencer phase (R12). -/
inductive Phase where
  /-- No operation in progress; the caller may issue one. -/
  | idle
  /-- Inside a poll loop, between status queries. -/
  | poll
  /-- Inside one IS_READY select bracket. -/
  | status
  /-- Inside the WRITE_FRAME select bracket. -/
  | txFrame
  /-- Inside the READ_ACK select bracket. -/
  | rxAck
  /-- READ_RESPONSE steps 2 to 5. -/
  | rxHeader
  /-- READ_RESPONSE step 6 after NoSpace was decided. -/
  | rxDrain
  /-- READ_RESPONSE step 7. -/
  | rxPayload
  /-- READ_RESPONSE steps 8 and 9. -/
  | rxTrailer
  /-- Inside WAKE. -/
  | waking
  deriving DecidableEq, Repr

/-- The logical state of the select line, the register `SEL` (R13). The pin is low when it is `asserted`. -/
inductive SelectLine where
  | asserted
  | released
  deriving DecidableEq, Repr

/-- The kinds of brief wait (00_scope.md section 4, R73, R81, R120). -/
inductive HoldKind where
  | wakeup
  | settle
  | wake
  deriving DecidableEq, Repr

/-- An event of the bus trace (R31) or of the timing trace (R32); the two are recorded interleaved, in one order. -/
inductive Event where
  /-- `SelAssert()`. -/
  | sel
  /-- `SelRelease()`. -/
  | rel
  /-- `BusTx(b)`. -/
  | tx (b : Byte)
  /-- `BusRx()` returned `b`. -/
  | rx (b : Byte)
  /-- `Sleep(n)`, in time units. -/
  | sleep (n : Nat)
  /-- `Hold(k)`. -/
  | hold (k : HoldKind)
  deriving DecidableEq, Repr

/-- The four protocol errors (R98). -/
inductive ProtocolError where
  | invalidAck
  | timeout
  | invalidFrame
  | noSpace
  deriving DecidableEq, Repr

/-- The contents of the register `RESULT` (R20). -/
inductive Result where
  /-- `Ok(())`, from WRITE_FRAME, WRITE_COMMAND and WAKE. -/
  | okUnit
  /-- `Ok(bool)`, from IS_READY and READ_ACK. -/
  | okBool (b : Bool)
  /-- `Ok(n)`, from READ_RESPONSE. -/
  | okCount (n : Nat)
  /-- `Err(E)`. -/
  | err (e : ProtocolError)
  deriving DecidableEq, Repr

/-- `ACKBUF[0..5]` (R19); each element holds a byte or ⊥. -/
structure AckBuf where
  b0 : Option Byte
  b1 : Option Byte
  b2 : Option Byte
  b3 : Option Byte
  b4 : Option Byte
  b5 : Option Byte
  deriving DecidableEq, Repr

/-- A byte array of the caller's: (index, byte) cells, indices strictly rising, no cell equal to what an unlisted index
reads as (`Config.unlistedByte`). -/
abbrev Memory := List Host.Cell

/-- What the caller does on its side of the block (R7, R121): issue an operation, hand over a byte array, or look at one.
Looking gives the caller a byte and changes nothing here. -/
inductive CallerMove where
  /-- Present a descriptor word (R52). -/
  | issue (w : Descriptor)
  /-- Supply command memory CMD with these bytes at indices 0, 1, … (R25). -/
  | supplyCmd (bytes : List Byte)
  /-- Supply a response buffer RBUF of this length and contents (R26). -/
  | supplyRbuf (bytes : List Byte)
  /-- Read CMD. -/
  | inspectCmd
  /-- Read RBUF. -/
  | inspectRbuf
  deriving DecidableEq, Repr

/-- Everything the spec gives the block, and the plain data of its surroundings. An `Option` register holds ⊥ when it is
`none` (00_scope.md section 4): ⊥ is the reset value the spec itself states (R116). -/
@[ext]
structure State where
  /-- `PENDING_OP` (R11): the last-sent opcode. -/
  pendingOp : Option Byte
  /-- `PHASE` (R12). -/
  phase : Phase
  /-- `SEL` (R13). -/
  sel : SelectLine
  /-- `ACC` (R14): running checksum. -/
  acc : Option Byte
  /-- `LEN` (R15): computed or received length byte. -/
  len : Option Byte
  /-- `LCS_RX` (R15): received length checksum. -/
  lcsRx : Option Byte
  /-- `TFI_RX` (R16): received direction byte. -/
  tfiRx : Option Byte
  /-- `CMD_RX` (R16): received response code. -/
  cmdRx : Option Byte
  /-- `EFF` (R17): effective payload length, an integer. -/
  eff : Option Nat
  /-- `POLLS` (R18): failed queries of the retry loop. -/
  polls : Option Nat
  /-- `ELAPSED` (R18): time units slept in the budget loop. -/
  elapsed : Option Nat
  /-- `ACKBUF` (R19). -/
  ackBuf : AckBuf
  /-- `RESULT` (R20). -/
  result : Option Result
  /-- Configuration: `ACK_RETRIES` (R5, R10 group 3, R23). -/
  ackRetries : Nat
  /-- CMD, the command memory the caller supplies (R25). -/
  cmd : Memory
  /-- RBUF, the response buffer the caller supplies (R26). -/
  rbuf : Memory
  /-- The number of bytes RBUF has (R26, R105 `BadConfig`). -/
  rbufSize : Nat
  /-- The bus trace and timing trace in one total order, oldest first (R31, R32, R36). -/
  trace : List Event
  /-- MODEL'S OWN (log entry 5): the operation in progress with its operands, while `PHASE` is not `IDLE`. -/
  op : Option Instr
  /-- MODEL'S OWN (log entry 6): what the caller presents on the command interface right now, whether or not the block is
  idle. -/
  port : Option CallerMove
  /-- MODEL'S OWN (log entry 6): the moves a well-behaved caller still makes, each only once the block is idle (R128). -/
  agenda : List CallerMove
  /-- MODEL'S OWN (log entry 1): the bytes the bus peer answers next, as far as the run's environment has fixed them. -/
  peer : List Byte
  /-- MODEL'S OWN (log entry 1): how many `BusRx()` calls the run has made; the argument of the free value
  `Config.peerByte`. -/
  draws : Nat
  deriving DecidableEq, Repr

/-- The model faults: the run ends (R104). -/
inductive Fault where
  /-- Raised by READ_RESPONSE at the opcode-echo check while `PENDING_OP = ⊥` (R86, R104). It carries the state the run
  stopped in. Safe: every claim about the run becomes unprovable. -/
  | noPendingOpcode (stopped : State)
  /-- Raised by the resumption of a poll loop whose counter register (named) holds ⊥ (00_scope.md section 4: reading ⊥ is
  a model fault). No run from reset reaches it. Safe. -/
  | unsetRegister (name : String)
  /-- Raised by a step that finds a phase other than `IDLE` in which no operation of this model rests between steps. The
  spec has no such state between operations (R12). No run from reset reaches it. Safe. -/
  | strayPhase
  deriving DecidableEq, Repr

/-- The refusals: the model takes no step (R105). -/
inductive Refusal where
  /-- An operation that has no meaning yet, raised by `exec`'s arms only. Safe. -/
  | notModelled (mnemonic : String)
  /-- A reserved `OPSEL` or a nonzero reserved field (R55), raised when the caller issues it. Safe. -/
  | badDescriptor
  /-- An operand out of range (R56), raised at issue. Safe. -/
  | badOperand
  /-- An issue, or a caller access to CMD or RBUF, while an operation is in progress (R40). Safe. -/
  | busy
  /-- `ACK_RETRIES = 0`, or an RBUF shorter than `CAP` (R105), raised at issue. Safe. -/
  | badConfig
  deriving DecidableEq, Repr

/-- An acknowledgment buffer whose six elements hold ⊥. -/
def AckBuf.empty : AckBuf := ⟨none, none, none, none, none, none⟩

/-- The state right after reset (R116, R117): `PENDING_OP`, every working register and `RESULT` hold ⊥, `PHASE` is `IDLE`,
`SEL` is released, no event has happened. `ACK_RETRIES` is its default (R5). The caller has supplied nothing and issues
nothing; no answer of the bus peer is fixed. -/
def State.reset : State where
  pendingOp := none
  phase := .idle
  sel := .released
  acc := none
  len := none
  lcsRx := none
  tfiRx := none
  cmdRx := none
  eff := none
  polls := none
  elapsed := none
  ackBuf := AckBuf.empty
  result := none
  ackRetries := Config.defaultAckRetries
  cmd := []
  rbuf := []
  rbufSize := 0
  trace := []
  op := none
  port := none
  agenda := []
  peer := []
  draws := 0

end Sys2Proof.Machine
end

