-- ==== Sys2Proof/Machine/Wire.lean ====
section
/-! DEFINITION. The wire constants, which "must match bit-exactly" (30_encoding.md R41; the direction bytes: R5, decision
D5). -/

namespace Sys2Proof.Machine

/-- Preamble, 0x00. -/
def preamble : Byte := 0x00#8

/-- Start code 1, 0x00. -/
def startCode1 : Byte := 0x00#8

/-- Start code 2, 0xFF. -/
def startCode2 : Byte := 0xFF#8

/-- Postamble, 0x00. -/
def postamble : Byte := 0x00#8

/-- `TFI_H2D`, the direction byte of a command. -/
def tfiH2D : Byte := 0xD4#8

/-- `TFI_D2H`, the direction byte of a response. -/
def tfiD2H : Byte := 0xD5#8

/-- Request byte of a data write (R42). -/
def dataWriteRequest : Byte := 0x01#8

/-- Request byte of a status read (R42). -/
def statusReadRequest : Byte := 0x02#8

/-- Request byte of a data read (R42). -/
def dataReadRequest : Byte := 0x03#8

/-- The acknowledgment frame `00 00 FF 00 FF 00`, as it stands in a full `ACKBUF`. -/
def ackFrame : AckBuf :=
  ⟨some 0x00#8, some 0x00#8, some 0xFF#8, some 0x00#8, some 0xFF#8, some 0x00#8⟩

end Sys2Proof.Machine
end

