-- ==== Sys2Proof/Machine/Flags.lean ====
section
/-! DEFINITION. The tests and byte computations of the rules. The block has no condition codes (10_state.md R21); what it
tests are the ready bit (R22), the length check (30_encoding.md R48), the ACK comparison (42_command_cycle.md R75) and
checksums. -/

namespace Sys2Proof.Machine

/-- `neg₈(b) = (~b + 1) mod 256` (00_scope.md section 4). -/
def neg8 (b : Byte) : Byte := ~~~b + 1#8

/-- The ready bit: bit 0 of the status byte; bits 7 to 1 are ignored (R22, R62). -/
def readyBit (status : Byte) : Bool := status.getLsbD 0

/-- `LEN = (N + 1) mod 256` (R44). -/
def lengthByte (n : Nat) : Byte := BitVec.ofNat 8 (n + 1)

/-- A received length is accepted exactly when `L +₈ LCS_RX = 0` (R48). -/
def lengthAccepted (len lcs : Byte) : Bool := len + lcs == 0#8

/-- `EFF = max(L - 2, 0)` on integers (R49). -/
def effectiveLength (len : Byte) : Nat := len.toNat - 2

/-- The response code the echo check expects, `PENDING_OP +₈ 1` (R86). -/
def expectedCode (pending : Byte) : Byte := pending + 1#8

/-- The payload checksum test `ACC +₈ DCS = 0` (R90). -/
def checksumOk (acc dcs : Byte) : Bool := acc + dcs == 0#8

/-- Exact equality of all six bytes with the ACK constant (R75). -/
def ackMatches (buf : AckBuf) : Bool := buf == ackFrame

end Sys2Proof.Machine
end

