-- ==== Sys2Proof/Machine/Operands.lean ====
section
/-! DEFINITION. The operand forms: every operand is zero-extended, none is signed, scaled or shifted (30_encoding.md
R53); what is judged of them at issue (60_exceptions.md R105). -/

namespace Sys2Proof.Machine

/-- `N = zext(desc[15:8])`. -/
def countOf (n : BitVec 8) : Nat := n.toNat

/-- `CAP = zext(desc[15:8])`. -/
def capacityOf (cap : BitVec 8) : Nat := cap.toNat

/-- `T = zext(desc[31:16])`, in time units. -/
def budgetOf (t : BitVec 16) : Nat := t.toNat

/-- How many bytes of RBUF an operation needs: `CAP` for READ_RESPONSE (R26), none for the others. -/
def bufferNeed : Instr → Nat
  | .isReady => 0
  | .writeFrame _ => 0
  | .writeCommand _ => 0
  | .readAck => 0
  | .readResponse cap _ => capacityOf cap
  | .wake => 0

/-- Why the issue of `i` in state `s` is refused, if it is (R105). A refusal is decided before anything happens (R106).
Log entries 10, 11 and 16: `ACK_RETRIES = 0` refuses every issue, and the order of the reasons is the model's. -/
def refusalOf (i : Instr) (s : State) : Option Refusal :=
  if s.phase ≠ .idle then some .busy
  else if i.wellFormed = false then some .badOperand
  else if s.ackRetries = 0 then some .badConfig
  else if s.rbufSize < bufferNeed i then some .badConfig
  else none

end Sys2Proof.Machine
end

