-- ==== Sys2Proof/Machine/Ops.lean ====
section
/-! DEFINITION. The named operations: the caller's byte arrays, the bus and timing primitives, register writes, and the
beginning and the end of an operation (00_scope.md section 4, 20_memory.md, 60_exceptions.md R106 to R108). -/

namespace Sys2Proof.Machine

/-! ### The caller's byte arrays -/

/-- `MemRead`: the byte at an index; an index no cell lists reads as `Config.unlistedByte`. -/
def Memory.read : Memory → Nat → Byte
  | [], _ => Config.unlistedByte
  | (i, b) :: m, a => if a = i then b else Memory.read m a

/-- One cell, or none where the byte is what an unlisted index reads as. -/
def Memory.cell (a : Nat) (b : Byte) : Memory :=
  if b = Config.unlistedByte then [] else [(a, b)]

/-- `MemWrite`: set the byte at an index, keeping the canonical form. -/
def Memory.write : Memory → Nat → Byte → Memory
  | [], a, b => Memory.cell a b
  | (i, c) :: m, a, b =>
    if a < i then Memory.cell a b ++ (i, c) :: m
    else if a = i then Memory.cell a b ++ m
    else (i, c) :: Memory.write m a b

/-- The array that holds `bytes` at indices `i`, `i + 1`, … -/
def Memory.ofBytes : Nat → List Byte → Memory
  | _, [] => []
  | i, b :: bs => Memory.write (Memory.ofBytes (i + 1) bs) i b

/-- The canonical form, for cells from index `lo` on: indices strictly rise and no cell equals the unlisted byte. -/
def Memory.wfFrom : Nat → Memory → Bool
  | _, [] => true
  | lo, (i, b) :: m => decide (lo ≤ i) && decide (b ≠ Config.unlistedByte) && Memory.wfFrom (i + 1) m

/-- The canonical form of a byte array. -/
def Memory.wf (m : Memory) : Bool := Memory.wfFrom 0 m

/-! ### Bus and timing primitives -/

/-- Record an event (R31, R32). -/
def State.emit (e : Event) (s : State) : State := { s with trace := s.trace ++ [e] }

/-- `SelAssert()`: sets `SEL` (R13), records `SEL`. -/
def State.selAssert (s : State) : State := { s with sel := .asserted, trace := s.trace ++ [.sel] }

/-- `SelRelease()`: sets `SEL` (R13), records `REL`. -/
def State.selRelease (s : State) : State := { s with sel := .released, trace := s.trace ++ [.rel] }

/-- `BusTx(b)`. -/
def State.busTx (b : Byte) (s : State) : State := s.emit (.tx b)

/-- `Sleep(n)`. -/
def State.sleep (n : Nat) (s : State) : State := s.emit (.sleep n)

/-- `Hold(k)`. -/
def State.hold (k : HoldKind) (s : State) : State := s.emit (.hold k)

/-- The byte the bus peer returns to the `k`-th `BusRx()` from now, counted from 0: the one the environment has fixed, else
the free draw (R33, log entry 1). -/
def State.upcoming (s : State) (k : Nat) : Byte :=
  match s.peer[k]? with
  | some b => b
  | none => Config.peerByte (s.draws + k)

/-- The byte the next `BusRx()` returns. -/
def State.answer (s : State) : Byte := s.upcoming 0

/-- The `n` bytes of the draws `i`, `i + 1`, … from now. -/
def State.answers (s : State) (i n : Nat) : List Byte := (List.range n).map fun j => s.upcoming (i + j)

/-- `BusRx()`: returns `s.answer`, consumes that draw (R33) and records it. -/
def State.busRx (s : State) : State :=
  { s with peer := s.peer.tail, draws := s.draws + 1, trace := s.trace ++ [.rx s.answer] }

/-! ### Register writes -/

/-- `phase <- p`. -/
def State.setPhase (p : Phase) (s : State) : State := { s with phase := p }

/-- `PENDING_OP <- b`. -/
def State.setPendingOp (b : Byte) (s : State) : State := { s with pendingOp := some b }

/-- `ACC <- b`. -/
def State.setAcc (b : Byte) (s : State) : State := { s with acc := some b }

/-- `LEN <- b`. -/
def State.setLen (b : Byte) (s : State) : State := { s with len := some b }

/-- `LCS_RX <- b`. -/
def State.setLcsRx (b : Byte) (s : State) : State := { s with lcsRx := some b }

/-- `TFI_RX <- b`. -/
def State.setTfiRx (b : Byte) (s : State) : State := { s with tfiRx := some b }

/-- `CMD_RX <- b`. -/
def State.setCmdRx (b : Byte) (s : State) : State := { s with cmdRx := some b }

/-- `EFF <- n`. -/
def State.setEff (n : Nat) (s : State) : State := { s with eff := some n }

/-- `POLLS <- n`. -/
def State.setPolls (n : Nat) (s : State) : State := { s with polls := some n }

/-- `ELAPSED <- n`. -/
def State.setElapsed (n : Nat) (s : State) : State := { s with elapsed := some n }

/-- Element `i` of an acknowledgment buffer set to `b`. -/
def AckBuf.put (buf : AckBuf) (i : Nat) (b : Byte) : AckBuf :=
  match i with
  | 0 => { buf with b0 := some b }
  | 1 => { buf with b1 := some b }
  | 2 => { buf with b2 := some b }
  | 3 => { buf with b3 := some b }
  | 4 => { buf with b4 := some b }
  | 5 => { buf with b5 := some b }
  | _ => buf

/-- `ACKBUF[i] <- b`. -/
def State.setAckBuf (i : Nat) (b : Byte) (s : State) : State := { s with ackBuf := s.ackBuf.put i b }

/-- `MemRead(i, 1)` on CMD (R25). -/
def State.readCmd (s : State) (i : Nat) : Byte := Memory.read s.cmd i

/-- `MemWrite(i, 1, b)` on RBUF (R26). -/
def State.writeRbuf (i : Nat) (b : Byte) (s : State) : State := { s with rbuf := Memory.write s.rbuf i b }

/-! ### Beginning and ending an operation -/

/-- Every working register holds ⊥, as at the start of every operation (10_state.md section 3). -/
def State.clearWorking (s : State) : State :=
  { s with
    acc := none, len := none, lcsRx := none, tfiRx := none, cmdRx := none, eff := none, polls := none,
    elapsed := none, ackBuf := AckBuf.empty, result := none }

/-- The block takes up operation `i` (log entry 5). -/
def State.start (i : Instr) (s : State) : State := { s.clearWorking with op := some i }

/-- `return` and `raise`, the one way an operation ends: `RESULT <- r`, `PHASE <- IDLE` (00_scope.md section 4, R107).
`SEL` is not touched. -/
def State.finish (r : Result) (s : State) : State := { s with result := some r, phase := .idle, op := none }

/-- `raise E`. -/
def State.raise (e : ProtocolError) (s : State) : State := s.finish (.err e)

/-- The issue of `i`: refused for a reason of R105, or begun and run by `body`. -/
def issue (i : Instr) (s : State) (body : State → Host.Outcome State Fault Refusal) :
    Host.Outcome State Fault Refusal :=
  match refusalOf i s with
  | some r => .refused r
  | none => body (s.start i)

end Sys2Proof.Machine
end

