-- ==== Sys2Proof/Machine/FrameEncode.lean ====
section
/-! DEFINITION. The Frame Codec's encoder: WRITE_FRAME (41_frame_encode.md). -/

namespace Sys2Proof.Machine

/-- Step 5 of R67: send the `k` data bytes from index `i` on, adding each to `ACC`; `acc` is what `ACC` holds. -/
def State.sendData : Nat → Nat → Byte → State → Byte × State
  | 0, _, acc, s => (acc, s)
  | k + 1, i, acc, s =>
    let b := s.readCmd i
    State.sendData k (i + 1) (acc + b) ((s.busTx b).setAcc (acc + b))

/-- Steps 1 to 3 of R67: open the bracket, hold, send request byte, preamble, start codes, length and length checksum. -/
def State.sendHeader (n : Nat) (s : State) : State :=
  let s := ((s.setPhase .txFrame).selAssert).hold .wakeup
  let s := (((s.busTx dataWriteRequest).busTx preamble).busTx startCode1).busTx startCode2
  ((s.setLen (lengthByte n)).busTx (lengthByte n)).busTx (neg8 (lengthByte n))

/-- Steps 6 and 7 of R67: data checksum, postamble, release. -/
def State.sendTrailer (acc : Byte) (s : State) : State :=
  ((s.busTx (neg8 acc)).busTx postamble).selRelease

/-- WRITE_FRAME's bracket, all of R67 up to its `return`. -/
def State.sendFrame (n : Nat) (s : State) : State :=
  let d := State.sendData n 0 tfiH2D (((s.sendHeader n).busTx tfiH2D).setAcc tfiH2D)
  d.2.sendTrailer d.1

/-- WRITE_FRAME (R67). -/
def execWriteFrame (n : BitVec 8) (s : State) : Host.Outcome State Fault Refusal :=
  issue (.writeFrame n) s fun s => .next ((s.sendFrame (countOf n)).finish .okUnit)

end Sys2Proof.Machine
end

