-- ==== Sys2Proof/Machine/Poller.lean ====
section
/-! DEFINITION. The Ready Poller: IS_READY and the two poll loops (40_ready_poller.md). -/

namespace Sys2Proof.Machine

/-- The status query of R61: one select bracket; also gives the status byte. -/
def State.statusQuery (s : State) : Byte × State :=
  let s := ((s.setPhase .status).selAssert).busTx statusReadRequest
  (s.answer, s.busRx.selRelease)

/-- IS_READY (R61). -/
def execIsReady (s : State) : Host.Outcome State Fault Refusal :=
  issue .isReady s fun s =>
    .next (s.statusQuery.2.finish (.okBool (readyBit s.statusQuery.1)))

/-- `POLL_RETRIES` (R63) with `k` tries left and `POLLS` at `polls`: `POLLS` reaches `R` exactly when no try is left. Gives
`true` for READY and `false` for EXHAUSTED. -/
def State.pollRetries : Nat → Nat → State → Bool × State
  | 0, _, s => (false, s)
  | k + 1, polls, s =>
    let q := (s.setPhase .poll).statusQuery
    if readyBit q.1 then (true, q.2)
    else State.pollRetries k (polls + 1) ((q.2.sleep 1).setPolls (polls + 1))

/-- How the budget loop leaves the step. -/
inductive PollOutcome where
  /-- The device reported ready. -/
  | ready
  /-- The budget is used up. -/
  | exhausted
  /-- Neither yet: the operation rests between two status queries (only with an unbounded budget; log entry 3). -/
  | pending
  deriving DecidableEq, Repr

/-- `POLL_BUDGET(T)` (R64) with `ELAPSED` at `elapsed`, for at most `k` queries; `pending` when these are made and the
loop goes on. -/
def State.pollBudget (t : Nat) : Nat → Nat → State → PollOutcome × State
  | 0, _, s => (.pending, s.setPhase .poll)
  | k + 1, elapsed, s =>
    let q := (s.setPhase .poll).statusQuery
    if readyBit q.1 then (.ready, q.2)
    else
      let s := (q.2.sleep 1).setElapsed (elapsed + 1)
      if 0 < t ∧ t < elapsed + 1 then (.exhausted, s)
      else State.pollBudget t k (elapsed + 1) s

/-- How many queries of `POLL_BUDGET(T)` one step makes: all `T + 1` of a bounded budget, one of an unbounded one, so that
an unending wait stays an unending run (R124; log entries 3 and 17). -/
def queriesPerStep (t : Nat) : Nat := if t = 0 then 1 else t + 1

end Sys2Proof.Machine
end

