-- ==== Sys2Proof/Machine/CommandCycle.lean ====
section
/-! DEFINITION. The command cycle: READ_ACK and WRITE_COMMAND (42_command_cycle.md). -/

namespace Sys2Proof.Machine

/-- Read `k` acknowledgment bytes into `ACKBUF` from element `i` on, in order (R74). -/
def State.receiveAck : Nat → Nat → State → State
  | 0, _, s => s
  | k + 1, i, s => State.receiveAck k (i + 1) (s.busRx.setAckBuf i s.answer)

/-- READ_ACK's bracket (R74): all six bytes are read, then compared (R75). -/
def State.ackQuery (s : State) : Bool × State :=
  let s := State.receiveAck 6 0 (((s.setPhase .rxAck).selAssert).busTx dataReadRequest)
  (ackMatches s.ackBuf, s.selRelease)

/-- READ_ACK (R74). -/
def execReadAck (s : State) : Host.Outcome State Fault Refusal :=
  issue .readAck s fun s => .next (s.ackQuery.2.finish (.okBool s.ackQuery.1))

/-- WRITE_COMMAND after its frame and its poll loop (R76): Timeout, or the acknowledgment and its verdict. -/
def State.afterRetries (p : Bool × State) : State :=
  if p.1 then
    if p.2.ackQuery.1 then p.2.ackQuery.2.finish .okUnit else p.2.ackQuery.2.raise .invalidAck
  else p.2.raise .timeout

/-- WRITE_COMMAND's steps (R76): `PENDING_OP` first (R77), the frame, the retry poll, the acknowledgment. -/
def State.commandCycle (n : Nat) (s : State) : State :=
  let s := (s.setPendingOp (s.readCmd 0)).sendFrame n
  State.afterRetries (State.pollRetries s.ackRetries 0 (s.setPolls 0))

/-- WRITE_COMMAND (R76). -/
def execWriteCommand (n : BitVec 8) (s : State) : Host.Outcome State Fault Refusal :=
  issue (.writeCommand n) s fun s => .next (s.commandCycle (countOf n))

end Sys2Proof.Machine
end

