-- ==== Sys2Proof/Machine/ResponseParser.lean ====
section
/-! DEFINITION. The response-frame parser: READ_RESPONSE (43_response_parser.md R81). The step numbers are those of
R81. -/

namespace Sys2Proof.Machine

/-- An InvalidFrame exit of the read section: release select, raise (R83, R101). -/
def State.badFrame (s : State) : Host.Outcome State Fault Refusal := .next (s.selRelease.raise .invalidFrame)

/-- Read and discard `k` bytes (R88). -/
def State.drain : Nat → State → State
  | 0, s => s
  | k + 1, s => State.drain k s.busRx

/-- Step 7's loop (R89): receive `k` payload bytes, store them from index `i` on, add each to `ACC`; `acc` is what `ACC`
holds. -/
def State.receivePayload : Nat → Nat → Byte → State → Byte × State
  | 0, _, acc, s => (acc, s)
  | k + 1, i, acc, s =>
    let b := s.answer
    State.receivePayload k (i + 1) (acc + b) ((s.busRx.writeRbuf i b).setAcc (acc + b))

/-- Steps 8 to 10 (R90 to R92); `acc` is what `ACC` holds. -/
def State.checkPayload (eff : Nat) (p : Byte × State) : Host.Outcome State Fault Refusal :=
  let s := p.2.setPhase .rxTrailer
  if checksumOk p.1 s.answer then .next (s.busRx.busRx.selRelease.finish (.okCount eff))
  else s.busRx.badFrame

/-- Step 7 with `ACC` seeded (R89), then the trailer. -/
def State.takePayload (eff : Nat) (seed : Byte) (s : State) : Host.Outcome State Fault Refusal :=
  State.checkPayload eff (State.receivePayload eff 0 seed ((s.setPhase .rxPayload).setAcc seed))

/-- The NoSpace exit of step 6 (R88): payload, checksum and postamble are drained. -/
def State.drainFrame (eff : Nat) (s : State) : State :=
  (State.drain eff (s.setPhase .rxDrain)).busRx.busRx.selRelease.raise .noSpace

/-- Step 6 (R87): effective length against capacity; `seed` is `TFI_RX +₈ CMD_RX`. -/
def State.checkCapacity (cap : Nat) (len seed : Byte) (s : State) : Host.Outcome State Fault Refusal :=
  let s := s.setEff (effectiveLength len)
  if cap < effectiveLength len then .next (s.drainFrame (effectiveLength len))
  else s.takePayload (effectiveLength len) seed

/-- Step 5, second half (R86): the opcode echo. While `PENDING_OP = ⊥` it is the spec's one fault, with the response code
read and select asserted (R81 step 5, R104). -/
def State.checkEcho (cap : Nat) (len tfi : Byte) (s : State) : Host.Outcome State Fault Refusal :=
  let code := s.answer
  let s := s.busRx.setCmdRx code
  match s.pendingOp with
  | none => .fault (.noPendingOpcode s)
  | some p => if code = expectedCode p then s.checkCapacity cap len (tfi + code) else s.badFrame

/-- Step 5, first half (R86): the direction byte. -/
def State.checkDirection (cap : Nat) (len : Byte) (s : State) : Host.Outcome State Fault Refusal :=
  let tfi := s.answer
  let s := s.busRx.setTfiRx tfi
  if tfi = tfiD2H then s.checkEcho cap len tfi else s.badFrame

/-- Step 4 (R85): length and length checksum. -/
def State.checkLength (cap : Nat) (s : State) : Host.Outcome State Fault Refusal :=
  let len := s.answer
  let s := s.busRx.setLen len
  let lcs := s.answer
  let s := s.busRx.setLcsRx lcs
  if lengthAccepted len lcs then s.checkDirection cap len else s.badFrame

/-- Step 3 (R84): the next header byte must be `b`. -/
def State.expectByte (b : Byte) (s : State) (go : State → Host.Outcome State Fault Refusal) :
    Host.Outcome State Fault Refusal :=
  if s.answer = b then go s.busRx else s.busRx.badFrame

/-- Steps 2 and 3 (R83, R84), then the rest of the read section. -/
def State.readSection (cap : Nat) (s : State) : Host.Outcome State Fault Refusal :=
  let s := (((s.setPhase .rxHeader).selAssert).hold .settle).busTx dataReadRequest
  s.expectByte preamble fun s =>
    s.expectByte startCode1 fun s =>
      s.expectByte startCode2 fun s => s.checkLength cap

/-- What READ_RESPONSE does when its poll loop leaves the step: the read section, Timeout (R82), or nothing yet. -/
def State.afterBudget (cap : Nat) (p : PollOutcome × State) : Host.Outcome State Fault Refusal :=
  match p.1 with
  | .ready => p.2.readSection cap
  | .exhausted => .next (p.2.raise .timeout)
  | .pending => .next p.2

/-- READ_RESPONSE from inside its poll loop, with `ELAPSED` at `elapsed` (R81 step 1 on). -/
def State.awaitResponse (cap t elapsed : Nat) (s : State) : Host.Outcome State Fault Refusal :=
  State.afterBudget cap (State.pollBudget t (queriesPerStep t) elapsed s)

/-- READ_RESPONSE (R81). -/
def execReadResponse (cap : BitVec 8) (t : BitVec 16) (s : State) : Host.Outcome State Fault Refusal :=
  issue (.readResponse cap t) s fun s =>
    (s.setElapsed 0).awaitResponse (capacityOf cap) (budgetOf t) 0

/-- READ_RESPONSE goes on from its poll loop in a later step (R64, R124; log entry 3). -/
def resumeReadResponse (cap : BitVec 8) (t : BitVec 16) (s : State) : Host.Outcome State Fault Refusal :=
  match s.elapsed with
  | none => .fault (.unsetRegister "ELAPSED")
  | some e => s.awaitResponse (capacityOf cap) (budgetOf t) e

end Sys2Proof.Machine
end

