-- ==== Sys2Proof/Machine/Wake.lean ====
section
/-! DEFINITION. WAKE, the bus capability's wake sequence as an operation (70_reset_and_hazards.md R120). -/

namespace Sys2Proof.Machine

/-- WAKE's bracket: select, hold, release, with no byte (R120). -/
def State.wakeBracket (s : State) : State :=
  (((s.setPhase .waking).selAssert).hold .wake).selRelease

/-- WAKE (R120). -/
def execWake (s : State) : Host.Outcome State Fault Refusal :=
  issue .wake s fun s => .next (s.wakeBracket.finish .okUnit)

end Sys2Proof.Machine
end

