-- ==== Sys2Proof/Machine/Dispatch.lean ====
section
/-! DEFINITION. Which meaning each operation has: one arm per row of spec/opcode_table.json. -/

namespace Sys2Proof.Machine

def exec (i : Instr) (s : State) : Host.Outcome State Fault Refusal :=
  match i with
  | .isReady => Sys2Proof.Machine.execIsReady s
  | .writeFrame n => Sys2Proof.Machine.execWriteFrame n s
  | .writeCommand n => Sys2Proof.Machine.execWriteCommand n s
  | .readAck => Sys2Proof.Machine.execReadAck s
  | .readResponse cap t => Sys2Proof.Machine.execReadResponse cap t s
  | .wake => Sys2Proof.Machine.execWake s

end Sys2Proof.Machine
end

