-- ==== Sys2Proof/Machine/Caller.lean ====
section
/-! DEFINITION. The command interface: how the caller's moves reach the block, and how an operation that rests in its
poll loop goes on (20_memory.md R40, 30_encoding.md R52, 70_reset_and_hazards.md R121). -/

namespace Sys2Proof.Machine

/-- The refusal for a descriptor the decoder rejects (R105). -/
def refusalOfDecode : DecodeError → Refusal
  | .badDescriptor => .badDescriptor
  | .badOperand => .badOperand

/-- The caller presents descriptor word `w` to an idle block (R52). -/
def issueWord (w : Descriptor) (s : State) : Host.Outcome State Fault Refusal :=
  match decode w with
  | .ok i => exec i s
  | .error e => .refused (refusalOfDecode e)

/-- The caller moves while the block is idle. Only an issue starts the block; CMD and RBUF are the caller's own between
operations (R25, R26, R121). -/
def callerMove (m : CallerMove) (s : State) : Host.Outcome State Fault Refusal :=
  match m with
  | .issue w => issueWord w s
  | .supplyCmd bytes => .next { s with cmd := Memory.ofBytes 0 bytes }
  | .supplyRbuf bytes => .next { s with rbuf := Memory.ofBytes 0 bytes, rbufSize := bytes.length }
  | .inspectCmd => .next s
  | .inspectRbuf => .next s

/-- An idle block takes what stands on the command interface, else the caller's next move, else it waits (R35, R116). -/
def stepIdle (s : State) : Host.Outcome State Fault Refusal :=
  match s.port with
  | some m => callerMove m { s with port := none }
  | none =>
    match s.agenda with
    | m :: ms => callerMove m { s with agenda := ms }
    | [] => .next s

/-- A block with an operation in progress refuses whatever the caller presents (R40, R105 `Busy`); otherwise the operation
goes on. READ_RESPONSE in its poll loop is the only operation that rests between steps (log entry 3). -/
def stepBusy (s : State) : Host.Outcome State Fault Refusal :=
  match s.port with
  | some _ => .refused .busy
  | none =>
    match s.phase, s.op with
    | .poll, some (.readResponse cap t) => resumeReadResponse cap t s
    | _, _ => .fault .strayPhase

/-- One step of the block with its caller. -/
def advance (s : State) : Host.Outcome State Fault Refusal :=
  if s.phase = .idle then stepIdle s else stepBusy s

/-- The state with the caller presenting `w` to an idle block, with a response buffer no `CAP` exceeds (log entry 6). -/
def State.presenting (s : State) (w : Descriptor) : State :=
  { s with phase := .idle, op := none, port := some (.issue w), rbufSize := max s.rbufSize 255 }

end Sys2Proof.Machine
end

