-- ==== Sys2Proof/Machine/Step.lean ====
section
/-! DEFINITION. One step of the machine, and where the next instruction is taken from: the command interface. -/

namespace Sys2Proof.Machine

/-- One step. -/
def step (s : State) : Host.Outcome State Fault Refusal := Sys2Proof.Machine.advance s

/-- `s` with the opcode-table word `w` of `nbits` bits presented on the command interface, so that `step` runs it. -/
def State.withFetchWord (s : State) (nbits w : Nat) : State :=
  s.presenting (BitVec.ofNat 32 (Sys2Proof.tableWord nbits w))

end Sys2Proof.Machine
end

