-- ==== Sys2Proof/Machine/Assembly.lean ====
section
/-! DEFINITION. The spec's way of writing operations, one per line (30_encoding.md R59), and the caller's moves a line
stands for. -/

namespace Sys2Proof.Machine

/-- A line of R59. Bracketed bytes give CMD in order and `N` is their count; `cap` and `budget` are decimal. -/
inductive AsmLine where
  | isReady
  | writeFrame (bytes : List Byte)
  | writeCommand (bytes : List Byte)
  | readAck
  | readResponse (cap budget : Nat)
  | wake
  deriving DecidableEq, Repr

/-- The descriptor word of a line; none where a count, capacity or budget does not fit its field (R53). -/
def AsmLine.descriptor : AsmLine → Option Descriptor
  | .isReady => some (encode .isReady)
  | .writeFrame bytes =>
    if bytes.length < 256 then some (encode (.writeFrame (BitVec.ofNat 8 bytes.length))) else none
  | .writeCommand bytes =>
    if bytes.length < 256 then some (encode (.writeCommand (BitVec.ofNat 8 bytes.length))) else none
  | .readAck => some (encode .readAck)
  | .readResponse cap budget =>
    if cap < 256 ∧ budget < 65536 then
      some (encode (.readResponse (BitVec.ofNat 8 cap) (BitVec.ofNat 16 budget)))
    else none
  | .wake => some (encode .wake)

/-- What the caller hands over with the line (R121): CMD for the writing operations. R59 writes no RBUF in a READ_RESPONSE
line, while R52 and R121 have the caller hand one over; DESIGN CHOICE (log entry 20, safe): the line hands over none, and the
RBUF is the one of the caller's last `supplyRbuf` move. -/
def AsmLine.handover : AsmLine → List CallerMove
  | .isReady => []
  | .writeFrame bytes => [.supplyCmd bytes]
  | .writeCommand bytes => [.supplyCmd bytes]
  | .readAck => []
  | .readResponse _ _ => []
  | .wake => []

/-- The caller's moves for a line: the handover, then the issue. -/
def AsmLine.moves (l : AsmLine) : Option (List CallerMove) :=
  match l.descriptor with
  | some w => some (l.handover ++ [.issue w])
  | none => none

end Sys2Proof.Machine
end

