-- ==== Sys2Proof/Machine/Observe.lean ====
section
/-! DEFINITION. What the caller and an observer see: the result word (30_encoding.md R57), the two traces and the
observation of an operation (20_memory.md R31, R32; 70_reset_and_hazards.md R128), and the time an event takes (R5,
R127). -/

namespace Sys2Proof.Machine

/-- The numeric code of a protocol error (R57, R98). -/
def errorCode : ProtocolError → Int
  | .invalidAck => -1
  | .timeout => -2
  | .invalidFrame => -3
  | .noSpace => -4

/-- The value of the result word, read as a signed integer (R57). -/
def resultValue : Result → Int
  | .okUnit => 0
  | .okBool b => if b then 1 else 0
  | .okCount n => n
  | .err e => errorCode e

/-- The 16-bit result word `RES` (R57). -/
def resultWord (r : Result) : ResultWord := BitVec.ofInt 16 (resultValue r)

/-- Whether an event belongs to the bus trace (R31); the others belong to the timing trace (R32). -/
def onBus : Event → Bool
  | .sel => true
  | .rel => true
  | .tx _ => true
  | .rx _ => true
  | .sleep _ => false
  | .hold _ => false

/-- The bus trace (R31). -/
def busTrace (events : List Event) : List Event := events.filter onBus

/-- The timing trace (R32). -/
def timingTrace (events : List Event) : List Event := events.filter fun e => !onBus e

/-- Nanoseconds an event of the timing trace takes at least; the spec gives bus events no time (R127). -/
def eventTime : Event → Nat
  | .sel => 0
  | .rel => 0
  | .tx _ => 0
  | .rx _ => 0
  | .sleep n => n * Config.timeUnit
  | .hold .wakeup => Config.tWakeup
  | .hold .settle => Config.tSettle
  | .hold .wake => Config.tWake

/-- The observation of an operation (R128, decision D21). -/
structure Observation where
  bus : List Event
  timing : List Event
  result : Option Result
  pendingOp : Option Byte
  rbuf : Memory
  deriving DecidableEq, Repr

/-- What is observed of the operation that led from `s` to `t`: the events since `s`, and `t`'s `RESULT`, `PENDING_OP` and
RBUF. -/
def observe (s t : State) : Observation where
  bus := busTrace (t.trace.drop s.trace.length)
  timing := timingTrace (t.trace.drop s.trace.length)
  result := t.result
  pendingOp := t.pendingOp
  rbuf := t.rbuf

end Sys2Proof.Machine
end

