-- ==== Sys2Proof/Safety.lean ====
section
/-! DEFINITION. The vocabulary of the claims: the exchanges and frames of the spec written out as its tables give them,
the exit table of the response parser, the discipline of the select line, and what a well-kept state and a well-ended
run are. Nothing here is used by the machine. -/

namespace Sys2Proof.Machine

/-! ### Exchanges on the bus -/

/-- One status query (30_encoding.md R51). -/
def statusBracket (b : Byte) : List Event := [.sel, .tx 0x02#8, .rx b, .rel]

/-- The rounds of a poll loop that found the device not ready: each a status query and one `SLEEP(1)` (40_ready_poller.md
R63, R64). -/
def notReadyRounds (bytes : List Byte) : List Event :=
  bytes.flatMap fun b => statusBracket b ++ [.sleep 1]

/-- One acknowledgment read (R50). -/
def ackBracket (bytes : List Byte) : List Event := [.sel, .tx 0x03#8] ++ bytes.map .rx ++ [.rel]

/-- One read section of READ_RESPONSE, from `SEL` to before `REL` (43_response_parser.md R97). -/
def openReadSection (bytes : List Byte) : List Event := [.sel, .hold .settle, .tx 0x03#8] ++ bytes.map .rx

/-- One frame write that sends `bytes` (R43, R67). -/
def frameBracket (bytes : List Byte) : List Event := [.sel, .hold .wakeup] ++ bytes.map .tx ++ [.rel]

/-- The events that carry a byte. -/
def carriesByte : Event → Bool
  | .tx _ => true
  | .rx _ => true
  | _ => false

/-- The events that receive a byte. -/
def receivesByte : Event → Bool
  | .rx _ => true
  | _ => false

/-- `events` are at most `polls` polls and then at most one further bracket, with at most `reads` bytes received. Polls are
bounded however they are counted: as brackets, as status requests and as bytes received; what comes after them holds no
status request. -/
def PollsThenReads (events : List Event) (polls reads : Nat) : Prop :=
  ∃ polled last, events = polled ++ last ∧
    polled.count .sel ≤ polls ∧ polled.count (.tx 0x02#8) ≤ polls ∧ polled.countP receivesByte ≤ polls ∧
    last.count .sel ≤ 1 ∧ last.count (.tx 0x02#8) = 0 ∧ last.countP receivesByte ≤ reads

/-! ### Frames -/

/-- The sum of bytes, modulo 256. -/
def byteSum (bytes : List Byte) : Byte := bytes.sum

/-- The data bytes `D[0..N-1]` of an operation: the first `n` bytes of CMD (R25). -/
def dataBytes (s : State) (n : Nat) : List Byte := (List.range n).map fun i => Memory.read s.cmd i

/-- The `N + 9` bytes of the envelope of R43 with direction byte `tfi`. -/
def envelopeWith (tfi : Byte) (data : List Byte) : List Byte :=
  [0x01#8, 0x00#8, 0x00#8, 0xFF#8, BitVec.ofNat 8 (data.length + 1), - BitVec.ofNat 8 (data.length + 1), tfi]
    ++ data ++ [- (tfi + byteSum data), 0x00#8]

/-- The command envelope of R43. -/
def envelope (data : List Byte) : List Byte := envelopeWith 0xD4#8 data

/-- The bytes a device sends as the response with payload `payload` to the command with opcode `op` (R96). -/
def responseEnvelope (op : Byte) (payload : List Byte) : List Byte :=
  [0x00#8, 0x00#8, 0xFF#8, BitVec.ofNat 8 (payload.length + 2), - BitVec.ofNat 8 (payload.length + 2), 0xD5#8, op + 1#8]
    ++ payload ++ [- (0xD5#8 + (op + 1#8) + byteSum payload), 0x00#8]

/-! ### Polling -/

/-- The block may take an operation: it is idle and properly configured (R40, R105). -/
def Accepting (s : State) : Prop := s.phase = .idle ∧ s.ackRetries ≠ 0

/-- The next `k` draws from draw `i` on are not-ready status bytes. -/
def NotReadyFor (s : State) (i k : Nat) : Prop := ∀ j, j < k → (s.upcoming (i + j)).getLsbD 0 = false

/-- The first ready answer comes at query `k + 1` (R63, R64). -/
def ReadyAtQuery (s : State) (k : Nat) : Prop := NotReadyFor s 0 k ∧ (s.upcoming k).getLsbD 0 = true

/-- Within what one step of READ_RESPONSE polls: the first query of an unbounded wait, all `T + 1` of a bounded one. -/
def WithinBudget (t k : Nat) : Prop := if t = 0 then k = 0 else k ≤ t

/-- A READ_RESPONSE with an unbounded budget rests in its poll loop, and the caller presents nothing. -/
def Waiting (s : State) (cap : BitVec 8) : Prop :=
  s.phase = .poll ∧ s.port = none ∧ s.op = some (.readResponse cap 0#16) ∧ s.elapsed.isSome = true

/-- The device answers a READ_RESPONSE with these operands: it is ready at query `k + 1` from state `s` on, within what one
step polls. In `s` the operation is either taken, or waits already (then `T = 0`). -/
def Answered (s : State) (cap : BitVec 8) (t : BitVec 16) (k : Nat) : Prop :=
  ((Accepting s ∧ cap.toNat ≤ s.rbufSize) ∨ (Waiting s cap ∧ t = 0#16)) ∧ ReadyAtQuery s k ∧ WithinBudget t.toNat k

/-- What READ_RESPONSE answers in state `s`: at its issue, or in the next step of its wait. -/
def responding (s : State) (cap : BitVec 8) (t : BitVec 16) : Host.Outcome State Fault Refusal :=
  if s.phase = .idle then exec (.readResponse cap t) s else step s

/-- A later step of operation `i`, which rests in its poll loop: the step from `s` answers `t`. -/
def LaterStep (i : Instr) (s t : State) : Prop :=
  s.phase = .poll ∧ s.port = none ∧ s.op = some i ∧ step s = .next t

/-- The events of a poll loop that finds the device ready at query `k + 1`. -/
def pollUntilReady (s : State) (k : Nat) : List Event := notReadyRounds (s.answers 0 k) ++ statusBracket (s.upcoming k)

/-! ### The exits of the read section -/

/-- The state `u` in which READ_RESPONSE, issued in `s`, ends with result `r` after the query `k + 1` found the device ready
and the read section made `n` reads: one bracket, released (R83), and `PENDING_OP` not written (R94). -/
def EndsAfter (s : State) (k n : Nat) (r : Result) (u : State) : Prop :=
  u.result = some r ∧ u.phase = .idle ∧ u.sel = .released ∧ u.pendingOp = s.pendingOp ∧
  u.trace = s.trace ++ pollUntilReady s k ++ openReadSection (s.answers (k + 1) n) ++ [.rel]

/-- The bytes from draw `i` on pass the header checks of READ_RESPONSE (steps 3 to 5) against the pending opcode `op`. -/
def HeaderPasses (s : State) (i : Nat) (op : Byte) : Prop :=
  s.upcoming i = 0x00#8 ∧ s.upcoming (i + 1) = 0x00#8 ∧ s.upcoming (i + 2) = 0xFF#8 ∧
  s.upcoming (i + 3) + s.upcoming (i + 4) = 0#8 ∧ s.upcoming (i + 5) = 0xD5#8 ∧ s.upcoming (i + 6) = op + 1#8

/-- How a read section ends: how many bytes it reads, how many it stores in RBUF, and the result; no result where the run
faults. -/
structure ReadExit where
  reads : Nat
  stored : Nat
  verdict : Option Result
  deriving DecidableEq, Repr

/-- The exit table of R97 with R93 and the order of R106: `f j` is the byte at RX offset `j` of the read section. -/
def readExit (pending : Option Byte) (cap : Nat) (f : Nat → Byte) : ReadExit :=
  let invalid (reads stored : Nat) : ReadExit := ⟨reads, stored, some (.err .invalidFrame)⟩
  if f 0 ≠ 0x00#8 then invalid 1 0
  else if f 1 ≠ 0x00#8 then invalid 2 0
  else if f 2 ≠ 0xFF#8 then invalid 3 0
  else if f 3 + f 4 ≠ 0#8 then invalid 5 0
  else if f 5 ≠ 0xD5#8 then invalid 6 0
  else
    match pending with
    | none => ⟨7, 0, none⟩
    | some op =>
      if f 6 ≠ op + 1#8 then invalid 7 0
      else
        let eff := (f 3).toNat - 2
        if cap < eff then ⟨eff + 9, 0, some (.err .noSpace)⟩
        else if 0xD5#8 + f 6 + byteSum ((List.range eff).map fun j => f (7 + j)) + f (7 + eff) ≠ 0#8 then
          invalid (eff + 8) eff
        else ⟨eff + 9, eff, some (.okCount eff)⟩

/-- What the spec says of the state `u` that the read section opened at `v` leaves, by its exit `x`: the events, the draws,
select, RBUF (R93, R97), and, unless the run faults, the end of the operation (R107). -/
def LeftByReadSection (v : State) (x : ReadExit) (u : State) : Prop :=
  u.draws = v.draws + x.reads ∧
  (∀ j, u.upcoming j = v.upcoming (x.reads + j)) ∧
  (∀ a, Memory.read u.rbuf a = if a < x.stored then v.upcoming (7 + a) else Memory.read v.rbuf a) ∧
  u.pendingOp = v.pendingOp ∧ u.ackRetries = v.ackRetries ∧ u.cmd = v.cmd ∧ u.rbufSize = v.rbufSize ∧
  u.port = v.port ∧ u.agenda = v.agenda ∧
  match x.verdict with
  | some r =>
    u.result = some r ∧ u.phase = .idle ∧ u.sel = .released ∧
    u.trace = v.trace ++ openReadSection (v.answers 0 x.reads) ++ [.rel]
  | none => u.sel = .asserted ∧ u.trace = v.trace ++ openReadSection (v.answers 0 x.reads)

/-! ### Working registers -/

/-- The registers only READ_RESPONSE's read section writes (R15 to R17) hold no value. -/
def SectionUnset (s : State) : Prop := s.lcsRx = none ∧ s.tfiRx = none ∧ s.cmdRx = none ∧ s.eff = none

/-! ### The discipline of the select line -/

/-- Where the bus stands (20_memory.md R28): between brackets, in one with no byte sent, in one after a data-write or a
read request, in a WAKE bracket, or outside the protocol. -/
inductive BusState where
  | released
  | opened
  | sending
  | receiving
  | waking
  | broken
  deriving DecidableEq, Repr

/-- One event on the bus. A bracket opens with a request byte, 0x01, 0x02 or 0x03, or is WAKE's, with no byte (R42); after
0x01 the block sends, after 0x02 and 0x03 it receives (R28); it sleeps only between brackets (R65) and holds only inside
one. -/
def busNext (b : BusState) (e : Event) : BusState :=
  match b, e with
  | .released, .sel => .opened
  | .released, .sleep _ => .released
  | .opened, .hold .wake => .waking
  | .opened, .hold .wakeup => .opened
  | .opened, .hold .settle => .opened
  | .opened, .tx r => if r = 0x01#8 then .sending else if r = 0x02#8 ∨ r = 0x03#8 then .receiving else .broken
  | .sending, .tx _ => .sending
  | .sending, .rel => .released
  | .receiving, .rx _ => .receiving
  | .receiving, .rel => .released
  | .waking, .rel => .released
  | _, _ => .broken

/-- Where the bus stands after a run's events. -/
def busAfter (events : List Event) : BusState := events.foldl busNext .released

/-! ### States and runs -/

/-- The block rests between operations, or in the poll loop of a READ_RESPONSE with an unbounded budget; select is released
either way (R12, R13, R65). -/
def Resting (s : State) : Prop :=
  s.sel = .released ∧
  ((s.phase = .idle ∧ s.op = none) ∨
   (s.phase = .poll ∧ s.result = none ∧
    ∃ cap e, s.op = some (.readResponse cap 0#16) ∧ s.elapsed = some e ∧ cap.toNat ≤ s.rbufSize))

/-- CMD and RBUF keep their canonical form, and RBUF has no byte beyond its length. -/
def MemoriesKept (s : State) : Prop :=
  Memory.wf s.cmd = true ∧ Memory.wf s.rbuf = true ∧ ∀ c, c ∈ s.rbuf → c.1 < s.rbufSize

/-- The run has ended well (70_reset_and_hazards.md R128): the block is idle and the caller issues nothing more. A fault or
a refusal has no such state. -/
def EndedWell (s : State) : Prop := s.phase = .idle ∧ s.port = none ∧ s.agenda = []

/-- The launch premise of R118 as far as the block shows it: a WAKE has been made. Bus configuration leaves no event. -/
def Woken (s : State) : Prop := .hold .wake ∈ s.trace

end Sys2Proof.Machine
end

