-- ==== Sys2Proof/Certificates/Slice0/Obligations.lean ====
section
/-! DEFINITION. The statements about the block, for the provers. Each says which rule of spec/ it formalises, or which rules
it is derived from. -/

open Sys2Proof Sys2Proof.Machine

/-! ### Descriptors -/

/-- Derived from R53, R54 and R56: decoding the descriptor of a well-formed operation gives the operation back. -/
def Obligations.DecodeInvertsEncode : Prop :=
  ∀ i : Instr, i.wellFormed = true → decode (encode i) = .ok i

/-- Derived from R53 to R56: a word that decodes is the descriptor of the operation it decodes to, and that operation is
well formed: no operation has two descriptors. -/
def Obligations.DecodedWordIsItsEncoding : Prop :=
  ∀ (w : Descriptor) (i : Instr), decode w = .ok i → i.wellFormed = true ∧ encode i = w

/-- Derived from R55: which words are refused `BadDescriptor`. That a word which also has an operand out of range (R56), such
as 0x0001FF21, is refused for this reason is the model's choice (log entry 12). -/
def Obligations.BadDescriptorExactly : Prop :=
  ∀ w : Descriptor, decode w = .error .badDescriptor ↔
    ((w.extractLsb' 0 8 : BitVec 8) ∉ [0x11#8, 0x21#8, 0x22#8, 0x31#8, 0x32#8, 0x41#8] ∨
     ((w.extractLsb' 0 8 : BitVec 8) ∈ [0x11#8, 0x31#8, 0x41#8] ∧
       ((w.extractLsb' 8 8 : BitVec 8) ≠ 0#8 ∨ (w.extractLsb' 16 16 : BitVec 16) ≠ 0#16)) ∨
     ((w.extractLsb' 0 8 : BitVec 8) ∈ [0x21#8, 0x22#8] ∧ (w.extractLsb' 16 16 : BitVec 16) ≠ 0#16))

/-- R56: an operand out of range is refused, `BadOperand` exactly where the field that must be 0 is 0; every other `N`, every
capacity and every budget is admitted; a WRITE_FRAME with `N = 0` sends a frame with no data bytes and `LEN = 1`. -/
def Obligations.BadOperandExactly : Prop :=
  (∀ w : Descriptor, (w.extractLsb' 16 16 : BitVec 16) = 0#16 →
    (decode w = .error .badOperand ↔
      ((w.extractLsb' 0 8 : BitVec 8) = 0x21#8 ∧ (w.extractLsb' 8 8 : BitVec 8) = 255#8) ∨
      ((w.extractLsb' 0 8 : BitVec 8) = 0x22#8 ∧
        ((w.extractLsb' 8 8 : BitVec 8) = 0#8 ∨ (w.extractLsb' 8 8 : BitVec 8) = 255#8)))) ∧
  (∀ (n : BitVec 8) (b : BitVec 16), n = 255#8 → ∃ e, decode (b ++ n ++ 0x21#8) = .error e) ∧
  (∀ (n : BitVec 8) (b : BitVec 16), n = 0#8 ∨ n = 255#8 → ∃ e, decode (b ++ n ++ 0x22#8) = .error e) ∧
  (∀ n : BitVec 8, n ≠ 255#8 → decode (0#16 ++ n ++ 0x21#8) = .ok (.writeFrame n)) ∧
  (∀ n : BitVec 8, n ≠ 0#8 → n ≠ 255#8 → decode (0#16 ++ n ++ 0x22#8) = .ok (.writeCommand n)) ∧
  (∀ (cap : BitVec 8) (t : BitVec 16), decode (t ++ cap ++ 0x32#8) = .ok (.readResponse cap t)) ∧
  ∀ s : State, Accepting s → ∃ t, exec (.writeFrame 0#8) s = .next t ∧
    t.trace = s.trace ++ frameBracket [0x01#8, 0x00#8, 0x00#8, 0xFF#8, 0x01#8, 0xFF#8, 0xD4#8, 0x2C#8, 0x00#8]

/-- Derived from R54, R55 and R56: the descriptor words of 95_test_vectors.md 2.8 decode to what it says. -/
def Obligations.SpecWordsDecode : Prop :=
  decodeTableWord 32 0x00000011 = some .isReady ∧
  decodeTableWord 32 0x0000FE21 = some (.writeFrame 254#8) ∧
  decodeTableWord 32 0x00000122 = some (.writeCommand 1#8) ∧
  decodeTableWord 32 0x00000031 = some .readAck ∧
  decodeTableWord 32 0x03E80432 = some (.readResponse 4#8 1000#16) ∧
  decodeTableWord 32 0x00000041 = some .wake ∧
  decode 0x00000111#32 = .error .badDescriptor ∧ decode 0x00010021#32 = .error .badDescriptor ∧
  decode 0x0000FF21#32 = .error .badOperand ∧ decode 0x00000022#32 = .error .badOperand

/-- Derived from R59: a written WRITE_FRAME or WRITE_COMMAND line hands over its bytes and issues a descriptor that decodes
to the operation with their count; a READ_RESPONSE line issues its operands. That it hands over no RBUF is the model's choice
(log entry 20). -/
def Obligations.LinesIssueTheirOperation : Prop :=
  (∀ bytes : List Byte, bytes.length ≤ 254 →
    ∃ w, (AsmLine.writeFrame bytes).moves = some [.supplyCmd bytes, .issue w] ∧
      decode w = .ok (.writeFrame (BitVec.ofNat 8 bytes.length))) ∧
  (∀ bytes : List Byte, 1 ≤ bytes.length → bytes.length ≤ 254 →
    ∃ w, (AsmLine.writeCommand bytes).moves = some [.supplyCmd bytes, .issue w] ∧
      decode w = .ok (.writeCommand (BitVec.ofNat 8 bytes.length))) ∧
  ∀ cap budget : Nat, cap ≤ 255 → budget ≤ 65535 →
    ∃ w, (AsmLine.readResponse cap budget).moves = some [.issue w] ∧
      decode w = .ok (.readResponse (BitVec.ofNat 8 cap) (BitVec.ofNat 16 budget))

/-! ### The step -/

/-- Derived from R52 and R53: a step of an idle block runs the operation its caller's descriptor decodes to, whether it
stands on the command interface or is the caller's next move; around `exec` the step only takes the descriptor. -/
def Obligations.StepRunsDecodedOperation : Prop :=
  ∀ (s : State) (w : Descriptor) (i : Instr), s.phase = .idle → decode w = .ok i →
    (s.port = some (.issue w) → step s = exec i { s with port := none }) ∧
    (∀ ms, s.port = none → s.agenda = .issue w :: ms → step s = exec i { s with agenda := ms })

/-- Derived from R55, R56 and R105: a step of an idle block refuses, by the decoder's reason, a descriptor that does not
decode. That this is the reason given where `ACK_RETRIES = 0` too, which is BadConfig, is the model's choice (log entry 11). -/
def Obligations.StepRefusesUndecodable : Prop :=
  ∀ (s : State) (w : Descriptor), s.phase = .idle → s.port = some (.issue w) →
    (decode w = .error .badDescriptor → step s = .refused .badDescriptor) ∧
    (decode w = .error .badOperand → step s = .refused .badOperand)

/-- Derived from R40 and R105: while an operation is in progress the block refuses whatever the caller presents, an issue or
an access to CMD or RBUF, and no operation can be taken. That Busy is the reason given where another of R105 holds too (an
undecodable word, an operand out of range, `ACK_RETRIES = 0`) is the model's choice (log entry 11). -/
def Obligations.BusyBlockRefusesCaller : Prop :=
  ∀ s : State, s.phase ≠ .idle →
    (∀ m, s.port = some m → step s = .refused .busy) ∧ ∀ i, exec i s = .refused .busy

/-- Derived from R35 and R116; that waiting is a step that changes nothing is the model's choice (log entry 6). -/
def Obligations.IdleBlockWaits : Prop :=
  ∀ s : State, s.phase = .idle → s.port = none → s.agenda = [] → step s = .next s

/-- Derived from R25, R26 and R39: the arrays the caller supplies read as the bytes it gave, and the other array and the
block's registers do not change. -/
def Obligations.SuppliedArraysRead : Prop :=
  ∀ (s : State) (bytes : List Byte), s.phase = .idle →
    (s.port = some (.supplyCmd bytes) →
      ∃ t, step s = .next t ∧ (∀ i b, bytes[i]? = some b → Memory.read t.cmd i = b) ∧
        { t with cmd := s.cmd, port := s.port } = s) ∧
    (s.port = some (.supplyRbuf bytes) →
      ∃ t, step s = .next t ∧ (∀ i b, bytes[i]? = some b → Memory.read t.rbuf i = b) ∧ t.rbufSize = bytes.length ∧
        { t with rbuf := s.rbuf, rbufSize := s.rbufSize, port := s.port } = s)

/-- Derived from R116, R117 and R5: the values reset leaves, that nothing starts by itself, and that configuration never
changes. That `ACK_RETRIES` is R5's default 10 at reset is the model's choice (log entry 7). -/
def Obligations.ResetValues : Prop :=
  State.reset.pendingOp = none ∧ State.reset.phase = .idle ∧ State.reset.sel = .released ∧
  State.reset.acc = none ∧ State.reset.len = none ∧ State.reset.lcsRx = none ∧ State.reset.tfiRx = none ∧
  State.reset.cmdRx = none ∧ State.reset.eff = none ∧ State.reset.polls = none ∧ State.reset.elapsed = none ∧
  State.reset.ackBuf = AckBuf.empty ∧ State.reset.result = none ∧ State.reset.ackRetries = 10 ∧
  State.reset.trace = [] ∧ (∀ t, step State.reset = .next t → t.phase = .idle ∧ t.trace = []) ∧
  ∀ s t, step s = .next t → t.ackRetries = s.ackRetries

/-! ### IS_READY -/

/-- R61 and R51: IS_READY from every accepting state: its result, its events, and what it leaves of the state the rule
names. -/
def Obligations.IsReadyResult : Prop :=
  encode .isReady = 0x00000011#32 ∧
  ∀ s : State, Accepting s →
    ∃ t, exec .isReady s = .next t ∧ t.result = some (.okBool ((s.upcoming 0).getLsbD 0)) ∧
      t.trace = s.trace ++ [.sel, .tx 0x02#8, .rx (s.upcoming 0), .rel] ∧ t.sel = .released ∧ t.phase = .idle ∧
      t.pendingOp = s.pendingOp

/-- R62: status bytes that agree in bit 0 lead to the same state but for the byte in the trace. -/
def Obligations.StatusBitsSevenToOneIgnored : Prop :=
  ∀ (s t : State) (b b' : Byte) (rest : List Byte), b.getLsbD 0 = b'.getLsbD 0 →
    exec .isReady { s with peer := b :: rest } = .next t →
    exec .isReady { s with peer := b' :: rest } = .next { t with trace := s.trace ++ statusBracket b' }

/-! ### WRITE_FRAME -/

/-- Derived from R67, R43 and R72: WRITE_FRAME from every accepting state, for every `N` it admits. That `LEN` and `ACC` keep
their values after the operation is the model's reading (log entry 13). -/
def Obligations.WriteFrameResult : Prop :=
  (∀ n : BitVec 8, encode (.writeFrame n) = 0#16 ++ n ++ 0x21#8) ∧
  ∀ (s : State) (n : BitVec 8), Accepting s → n ≠ 255#8 →
    (envelope (dataBytes s n.toNat)).length = n.toNat + 9 ∧
    ∃ t, exec (.writeFrame n) s = .next t ∧ t.result = some .okUnit ∧
      t.trace = s.trace ++ [.sel, .hold .wakeup] ++ (envelope (dataBytes s n.toNat)).map .tx ++ [.rel] ∧
      t.len = some (BitVec.ofNat 8 (n.toNat + 1)) ∧ t.acc = some (0xD4#8 + byteSum (dataBytes s n.toNat)) ∧
      t.sel = .released ∧ t.phase = .idle ∧ t.pendingOp = s.pendingOp

/-- R68: the two checksums of every envelope WRITE_FRAME sends. -/
def Obligations.EnvelopeChecksumsCancel : Prop :=
  ∀ (s t : State) (n : BitVec 8), exec (.writeFrame n) s = .next t →
    ∃ sent : List Byte, t.trace = s.trace ++ frameBracket sent ∧
      (∃ len lcs, sent[4]? = some len ∧ sent[5]? = some lcs ∧ len + lcs = 0#8) ∧
      (∃ dcs, sent[7 + n.toNat]? = some dcs ∧ (sent.drop 7).take n.toNat = dataBytes s n.toNat ∧
        0xD4#8 + byteSum ((sent.drop 7).take n.toNat) + dcs = 0#8)

/-- R71: the corner cases of WRITE_FRAME. -/
def Obligations.WriteFrameCorners : Prop :=
  (∀ s t, exec (.writeFrame 0#8) s = .next t →
    t.trace = s.trace ++ frameBracket [0x01#8, 0x00#8, 0x00#8, 0xFF#8, 0x01#8, 0xFF#8, 0xD4#8, 0x2C#8, 0x00#8]) ∧
  (∀ s t, exec (.writeFrame 254#8) s = .next t →
    ∃ sent : List Byte, t.trace = s.trace ++ frameBracket sent ∧ sent.length = 263 ∧
      sent[4]? = some 0xFF#8 ∧ sent[5]? = some 0x01#8) ∧
  (∀ (s t : State) (n : BitVec 8), exec (.writeFrame n) s = .next t → 0xD4#8 + byteSum (dataBytes s n.toNat) = 0x00#8 →
    ∃ sent : List Byte, t.trace = s.trace ++ frameBracket sent ∧ sent[7 + n.toNat]? = some 0x00#8) ∧
  (∀ (s t : State) (n : BitVec 8) (i : Nat), exec (.writeFrame n) s = .next t → i < n.toNat →
    ∃ sent : List Byte, t.trace = s.trace ++ frameBracket sent ∧ sent[7 + i]? = some (Memory.read s.cmd i)) ∧
  decode 0x0000FF21#32 = .error .badOperand ∧
  ∀ s, Accepting s → exec (.writeFrame 255#8) s = .refused .badOperand

/-- Derived from R11, R25, R26 and R70: the frame of the operations that neither command nor parse. -/
def Obligations.ShortOperationsFrame : Prop :=
  ∀ (i : Instr) (s t : State), (i = .isReady ∨ (∃ n, i = .writeFrame n) ∨ i = .readAck ∨ i = .wake) →
    exec i s = .next t →
    t.pendingOp = s.pendingOp ∧ t.ackRetries = s.ackRetries ∧ t.rbufSize = s.rbufSize ∧
    t.port = s.port ∧ t.agenda = s.agenda ∧
    (∀ a, Memory.read t.cmd a = Memory.read s.cmd a) ∧ ∀ a, Memory.read t.rbuf a = Memory.read s.rbuf a

/-! ### READ_ACK -/

/-- Derived from R74 and R50: READ_ACK from every accepting state. That `ACKBUF` keeps its bytes after the operation is the
model's reading (log entry 13). -/
def Obligations.ReadAckResult : Prop :=
  encode .readAck = 0x00000031#32 ∧
  ∀ s : State, Accepting s →
    ∃ t, exec .readAck s = .next t ∧
      t.ackBuf = ⟨some (s.upcoming 0), some (s.upcoming 1), some (s.upcoming 2), some (s.upcoming 3), some (s.upcoming 4),
        some (s.upcoming 5)⟩ ∧
      t.result = some (.okBool (s.answers 0 6 = [0x00#8, 0x00#8, 0xFF#8, 0x00#8, 0xFF#8, 0x00#8])) ∧
      t.trace = s.trace ++ [.sel, .tx 0x03#8] ++ (s.answers 0 6).map .rx ++ [.rel] ∧ t.sel = .released ∧ t.phase = .idle ∧
      t.pendingOp = s.pendingOp

/-- R75: six bytes are read whatever they are, and a difference in any bit of any byte gives `false`. -/
def Obligations.AckComparisonExact : Prop :=
  ∀ s t, exec .readAck s = .next t →
    t.trace = s.trace ++ ackBracket (s.answers 0 6) ∧
    ((∀ j : Fin 6, s.upcoming j = [0x00#8, 0x00#8, 0xFF#8, 0x00#8, 0xFF#8, 0x00#8][j]) →
      t.result = some (.okBool true)) ∧
    ((∃ (j : Fin 6) (k : Nat), k < 8 ∧
        (s.upcoming j).getLsbD k ≠ ([0x00#8, 0x00#8, 0xFF#8, 0x00#8, 0xFF#8, 0x00#8][j]).getLsbD k) →
      t.result = some (.okBool false))

/-! ### WRITE_COMMAND -/

/-- Derived from R76 and R100: WRITE_COMMAND from every accepting state, for every `N` it admits: acknowledged or InvalidAck
when the device is ready at query `k + 1` within the retries, Timeout when it never is; `N = 0` is refused. That `LEN`, `ACC`,
`POLLS` and `ACKBUF` keep their values after the operation is the model's reading (log entry 13). -/
def Obligations.WriteCommandResult : Prop :=
  (∀ n : BitVec 8, encode (.writeCommand n) = 0#16 ++ n ++ 0x22#8) ∧
  (∀ s : State, Accepting s → exec (.writeCommand 0#8) s = .refused .badOperand) ∧
  ∀ (s : State) (n : BitVec 8), Accepting s → n ≠ 0#8 → n ≠ 255#8 →
    ∃ t, exec (.writeCommand n) s = .next t ∧ t.pendingOp = some (Memory.read s.cmd 0) ∧
      t.len = some (BitVec.ofNat 8 (n.toNat + 1)) ∧ t.acc = some (0xD4#8 + byteSum (dataBytes s n.toNat)) ∧
      t.sel = .released ∧ t.phase = .idle ∧
      (∀ k, k < s.ackRetries → ReadyAtQuery s k →
        t.result = some (if s.answers (k + 1) 6 = [0x00#8, 0x00#8, 0xFF#8, 0x00#8, 0xFF#8, 0x00#8] then .okUnit
          else .err .invalidAck) ∧
        t.polls = some k ∧
        t.ackBuf = ⟨some (s.upcoming (k + 1)), some (s.upcoming (k + 2)), some (s.upcoming (k + 3)),
          some (s.upcoming (k + 4)), some (s.upcoming (k + 5)), some (s.upcoming (k + 6))⟩ ∧
        t.trace = s.trace ++ frameBracket (envelope (dataBytes s n.toNat)) ++ pollUntilReady s k
          ++ ackBracket (s.answers (k + 1) 6)) ∧
      (NotReadyFor s 0 s.ackRetries →
        t.result = some (.err .timeout) ∧ t.polls = some s.ackRetries ∧
        t.trace = s.trace ++ frameBracket (envelope (dataBytes s n.toNat)) ++ notReadyRounds (s.answers 0 s.ackRetries))

/-- Derived from R76, R77, R107 and R125: from every accepting state WRITE_COMMAND ends, with the first byte of CMD as the
pending opcode, select released, and one of its three results. -/
def Obligations.WriteCommandAlwaysEnds : Prop :=
  ∀ (s : State) (n : BitVec 8), Accepting s → n ≠ 0#8 → n ≠ 255#8 →
    ∃ t, exec (.writeCommand n) s = .next t ∧ t.phase = .idle ∧ t.sel = .released ∧
      t.pendingOp = some (Memory.read s.cmd 0) ∧ t.draws ≤ s.draws + s.ackRetries + 6 ∧
      (t.result = some .okUnit ∨ t.result = some (.err .timeout) ∨ t.result = some (.err .invalidAck))

/-- R79: the select brackets, bytes and sleeps of WRITE_COMMAND, `k` not-ready answers before the first ready one, and on
Timeout. -/
def Obligations.WriteCommandEventCounts : Prop :=
  ∀ (s t : State) (n : BitVec 8), exec (.writeCommand n) s = .next t →
    ∃ new, t.trace = s.trace ++ new ∧
      (∀ k, k < s.ackRetries → ReadyAtQuery s k →
        (t.result = some .okUnit ∨ t.result = some (.err .invalidAck)) ∧
        new.count .sel = k + 3 ∧ new.count .rel = k + 3 ∧ new.countP carriesByte = n.toNat + 2 * k + 18 ∧
        new.count (.sleep 1) = k) ∧
      (NotReadyFor s 0 s.ackRetries →
        t.result = some (.err .timeout) ∧ new.count .sel = s.ackRetries + 1 ∧ new.count .rel = s.ackRetries + 1 ∧
        new.countP carriesByte = n.toNat + 9 + 2 * s.ackRetries ∧ new.count (.sleep 1) = s.ackRetries)

/-- Derived from R80: the frame is sent once, whatever the outcome. -/
def Obligations.WriteCommandSendsOneFrame : Prop :=
  ∀ (s t : State) (n : BitVec 8), exec (.writeCommand n) s = .next t →
    ∃ new, t.trace = s.trace ++ frameBracket (envelope (dataBytes s n.toNat)) ++ new ∧
      new.count (.hold .wakeup) = 0 ∧ new.count (.tx 0x01#8) = 0

/-- Derived from R25, R26 and R77: the frame of WRITE_COMMAND, and the one register that outlives it. -/
def Obligations.WriteCommandFrame : Prop :=
  ∀ (s t : State) (n : BitVec 8), exec (.writeCommand n) s = .next t →
    t.pendingOp = some (Memory.read s.cmd 0) ∧ t.ackRetries = s.ackRetries ∧ t.rbufSize = s.rbufSize ∧
    t.port = s.port ∧ t.agenda = s.agenda ∧
    (∀ a, Memory.read t.cmd a = Memory.read s.cmd a) ∧ ∀ a, Memory.read t.rbuf a = Memory.read s.rbuf a

/-! ### READ_RESPONSE -/

/-- Derived from R64, R82 and R99: a bounded wait that finds the device not ready `T + 1` times is a Timeout, with no read
section; the whole state it leaves (its working registers: log entry 13). -/
def Obligations.ReadResponseTimesOut : Prop :=
  ∀ (s : State) (cap : BitVec 8) (t : BitVec 16), Accepting s → cap.toNat ≤ s.rbufSize → t ≠ 0#16 →
    NotReadyFor s 0 (t.toNat + 1) →
    exec (.readResponse cap t) s = .next
      { s.clearWorking with
        phase := .idle, sel := .released, op := none, elapsed := some (t.toNat + 1)
        peer := s.peer.drop (t.toNat + 1), draws := s.draws + (t.toNat + 1), result := some (.err .timeout)
        trace := s.trace ++ notReadyRounds (s.answers 0 (t.toNat + 1)) }

/-- Derived from R81, R97, R93 and R106: once the device is ready, READ_RESPONSE ends as the exit table says, in its events,
reads, RBUF and result, or faults where the table has no result; at its issue and in a later step of an unbounded wait. -/
def Obligations.ReadResponseFollowsExitTable : Prop :=
  ∀ (s : State) (cap : BitVec 8) (t : BitVec 16) (k : Nat), Answered s cap t k → Memory.wf s.rbuf = true →
    ∃ u, (match (readExit s.pendingOp cap.toNat fun j => s.upcoming (k + 1 + j)).verdict with
        | some _ => responding s cap t = .next u
        | none => responding s cap t = .fault (.noPendingOpcode u)) ∧
      LeftByReadSection
        { s with
          peer := s.peer.drop (k + 1), draws := s.draws + (k + 1), trace := s.trace ++ pollUntilReady s k }
        (readExit s.pendingOp cap.toNat fun j => s.upcoming (k + 1 + j)) u

/-- Derived from R64, R97, R93 and R106: an unbounded wait over `k` not-ready answers ends, at the first ready one, as the
exit table says. That its `k + 1` queries are `k + 1` steps is the model's choice (log entry 3). -/
def Obligations.UnboundedWaitEndsByExitTable : Prop :=
  ∀ (k : Nat) (s : State) (cap : BitVec 8) (w : Descriptor), Accepting s → cap.toNat ≤ s.rbufSize →
    s.port = some (.issue w) → decode w = .ok (.readResponse cap 0#16) → ReadyAtQuery s k → Memory.wf s.rbuf = true →
    ∃ u : State, (match (readExit s.pendingOp cap.toNat fun j => s.upcoming (k + 1 + j)).verdict with
        | some _ => core.run (k + 1) s = .next u
        | none => core.run (k + 1) s = .fault (.noPendingOpcode u)) ∧
      LeftByReadSection
        { s with
          port := none, peer := s.peer.drop (k + 1), draws := s.draws + (k + 1)
          trace := s.trace ++ pollUntilReady s k }
        (readExit s.pendingOp cap.toNat fun j => s.upcoming (k + 1 + j)) u

/-- Derived from R64 and R124: with `T = 0` a not-ready answer leaves READ_RESPONSE in its poll loop, at its issue and at
every later step; the whole state it leaves. That such a step makes one query is the model's choice (log entry 3; the
working registers: log entry 13). -/
def Obligations.UnboundedWaitRests : Prop :=
  (∀ (s : State) (cap : BitVec 8), Accepting s → cap.toNat ≤ s.rbufSize → (s.upcoming 0).getLsbD 0 = false →
    exec (.readResponse cap 0#16) s = .next
      { s.clearWorking with
        phase := .poll, sel := .released, op := some (.readResponse cap 0#16), elapsed := some 1
        peer := s.peer.tail, draws := s.draws + 1, trace := s.trace ++ statusBracket (s.upcoming 0) ++ [.sleep 1] }) ∧
  ∀ (s : State) (cap : BitVec 8) (e : Nat), s.phase = .poll → s.port = none → s.op = some (.readResponse cap 0#16) →
    s.elapsed = some e → (s.upcoming 0).getLsbD 0 = false →
    step s = .next
      { s with
        sel := .released, elapsed := some (e + 1), peer := s.peer.tail, draws := s.draws + 1
        trace := s.trace ++ statusBracket (s.upcoming 0) ++ [.sleep 1] }

/-- Derived from R64 and R124: however long the device is not ready, a READ_RESPONSE with `T = 0` goes on, with no result:
after `k + 1` not-ready answers it is still in its poll loop, `k + 1` sleeps later. -/
def Obligations.UnboundedWaitNeverEnds : Prop :=
  ∀ (k : Nat) (s : State) (cap : BitVec 8) (w : Descriptor), Accepting s → cap.toNat ≤ s.rbufSize →
    s.port = some (.issue w) → decode w = .ok (.readResponse cap 0#16) → NotReadyFor s 0 (k + 1) →
    ∃ t : State, core.run (k + 1) s = .next t ∧ t.phase = .poll ∧ t.result = none ∧ t.elapsed = some (k + 1) ∧
      t.trace = s.trace ++ notReadyRounds (s.answers 0 (k + 1))

/-- R96: the round trip. A device that answers with the encoder's layout for `(p + 1) :: P` has its payload received. -/
def Obligations.ResponseRoundTrip : Prop :=
  (∀ (p : Byte) (P : List Byte), responseEnvelope p P = (envelopeWith 0xD5#8 ((p + 1#8) :: P)).drop 1) ∧
  ∀ (s : State) (p : Byte) (P : List Byte) (cap : BitVec 8) (t : BitVec 16),
    Accepting s → cap.toNat ≤ s.rbufSize → Memory.wf s.rbuf = true → s.pendingOp = some p →
    P.length ≤ 253 → P.length ≤ cap.toNat → (s.upcoming 0).getLsbD 0 = true →
    s.answers 1 (P.length + 9) = responseEnvelope p P →
    ∃ u, exec (.readResponse cap t) s = .next u ∧ EndsAfter s 0 (P.length + 9) (.okCount P.length) u ∧
      ∀ i b, P[i]? = some b → Memory.read u.rbuf i = b

/-- R84: a wrong header byte ends the operation at once, after 1, 2 or 3 reads. -/
def Obligations.HeaderMismatchExits : Prop :=
  ∀ (s : State) (cap : BitVec 8) (t : BitVec 16) (k : Nat), Answered s cap t k →
    (s.upcoming (k + 1) ≠ 0x00#8 →
      ∃ u, responding s cap t = .next u ∧ EndsAfter s k 1 (.err .invalidFrame) u ∧ u.rbuf = s.rbuf) ∧
    (s.upcoming (k + 1) = 0x00#8 → s.upcoming (k + 2) ≠ 0x00#8 →
      ∃ u, responding s cap t = .next u ∧ EndsAfter s k 2 (.err .invalidFrame) u ∧ u.rbuf = s.rbuf) ∧
    (s.upcoming (k + 1) = 0x00#8 → s.upcoming (k + 2) = 0x00#8 → s.upcoming (k + 3) ≠ 0xFF#8 →
      ∃ u, responding s cap t = .next u ∧ EndsAfter s k 3 (.err .invalidFrame) u ∧ u.rbuf = s.rbuf)

/-- Derived from R85: a wrong length checksum ends the operation after 5 reads. That `LEN` and `LCS_RX` keep their values
after the operation is the model's reading (log entry 13). -/
def Obligations.LengthMismatchExit : Prop :=
  ∀ (s : State) (cap : BitVec 8) (t : BitVec 16) (k : Nat), Answered s cap t k →
    s.upcoming (k + 1) = 0x00#8 → s.upcoming (k + 2) = 0x00#8 → s.upcoming (k + 3) = 0xFF#8 →
    s.upcoming (k + 4) + s.upcoming (k + 5) ≠ 0#8 →
    ∃ u, responding s cap t = .next u ∧ EndsAfter s k 5 (.err .invalidFrame) u ∧ u.rbuf = s.rbuf ∧
      u.len = some (s.upcoming (k + 4)) ∧ u.lcsRx = some (s.upcoming (k + 5))

/-- R86: the direction check after 6 reads; then, after 7, the fault without a pending opcode, select still asserted, or the
opcode-echo check, modulo 256. -/
def Obligations.DirectionAndEchoChecks : Prop :=
  ∀ (s : State) (cap : BitVec 8) (t : BitVec 16) (k : Nat), Answered s cap t k →
    s.upcoming (k + 1) = 0x00#8 → s.upcoming (k + 2) = 0x00#8 → s.upcoming (k + 3) = 0xFF#8 →
    s.upcoming (k + 4) + s.upcoming (k + 5) = 0#8 →
    (s.upcoming (k + 6) ≠ 0xD5#8 →
      ∃ u, responding s cap t = .next u ∧ EndsAfter s k 6 (.err .invalidFrame) u ∧ u.rbuf = s.rbuf) ∧
    (s.upcoming (k + 6) = 0xD5#8 → s.pendingOp = none →
      ∃ u, responding s cap t = .fault (.noPendingOpcode u) ∧ u.sel = .asserted ∧ u.rbuf = s.rbuf ∧
        u.trace = s.trace ++ pollUntilReady s k ++ openReadSection (s.answers (k + 1) 7)) ∧
    (∀ p, s.upcoming (k + 6) = 0xD5#8 → s.pendingOp = some p → s.upcoming (k + 7) ≠ p + 1#8 →
      ∃ u, responding s cap t = .next u ∧ EndsAfter s k 7 (.err .invalidFrame) u ∧ u.rbuf = s.rbuf)

/-- Derived from R49 and R87: the effective length, and the comparison with the capacity on integers. After a good header
`EFF` is `max(L - 2, 0)`; beyond `CAP` the operation ends NoSpace, otherwise the checksum decides; with `L` at most 2 nothing
is copied. That `EFF` keeps its value after the operation is the model's reading (log entry 13). -/
def Obligations.EffectiveLengthAgainstCapacity : Prop :=
  ∀ (s : State) (cap : BitVec 8) (t : BitVec 16) (k : Nat) (p : Byte) (eff : Nat), Answered s cap t k →
    s.pendingOp = some p → HeaderPasses s (k + 1) p → eff = (s.upcoming (k + 4)).toNat - 2 →
    ∃ u, responding s cap t = .next u ∧ u.eff = some eff ∧ eff ≤ 253 ∧
      u.result = some (if cap.toNat < eff then .err .noSpace
        else if 0xD5#8 + (p + 1#8) + byteSum (s.answers (k + 8) eff) + s.upcoming (k + 8 + eff) = 0#8 then .okCount eff
        else .err .invalidFrame) ∧
      ((s.upcoming (k + 4)).toNat ≤ 2 → u.rbuf = s.rbuf)

/-- R88: NoSpace drains the whole frame, `EFF` bytes, checksum and postamble, and writes nothing to RBUF; no checksum is
looked at. -/
def Obligations.NoSpaceDrainsFrame : Prop :=
  ∀ (s : State) (cap : BitVec 8) (t : BitVec 16) (k : Nat) (p : Byte), Answered s cap t k → s.pendingOp = some p →
    HeaderPasses s (k + 1) p → cap.toNat < (s.upcoming (k + 4)).toNat - 2 →
    ∃ u, responding s cap t = .next u ∧ u.rbuf = s.rbuf ∧
      EndsAfter s k ((s.upcoming (k + 4)).toNat - 2 + 9) (.err .noSpace) u

/-- Derived from R89, R90, R91 and R92: after a good header within the capacity the payload is stored and summed; a bad
checksum is InvalidFrame after `8 + EFF` reads, a good one Ok(EFF) after one more, whatever the postamble is. That `ACC` keeps
its value after the operation is the model's reading (log entry 13). -/
def Obligations.PayloadReceived : Prop :=
  ∀ (s : State) (cap : BitVec 8) (t : BitVec 16) (k : Nat) (p : Byte) (eff : Nat), Answered s cap t k →
    Memory.wf s.rbuf = true → s.pendingOp = some p → HeaderPasses s (k + 1) p →
    eff = (s.upcoming (k + 4)).toNat - 2 → eff ≤ cap.toNat →
    ∃ u, responding s cap t = .next u ∧
      u.acc = some (0xD5#8 + (p + 1#8) + byteSum (s.answers (k + 8) eff)) ∧
      (∀ a, Memory.read u.rbuf a = if a < eff then s.upcoming (k + 8 + a) else Memory.read s.rbuf a) ∧
      if 0xD5#8 + (p + 1#8) + byteSum (s.answers (k + 8) eff) + s.upcoming (k + 8 + eff) = 0#8 then
        EndsAfter s k (eff + 9) (.okCount eff) u
      else EndsAfter s k (8 + eff) (.err .invalidFrame) u

/-- Derived from R81, R83, R94, R104 and R107: once a command has been sent, READ_RESPONSE never stops: it ends with one of
its results, or, only with an unbounded budget, waits. -/
def Obligations.ReadResponseCompletes : Prop :=
  ∀ (s : State) (cap : BitVec 8) (b : BitVec 16) (p : Byte), Accepting s → cap.toNat ≤ s.rbufSize → s.pendingOp = some p →
    ∃ t, exec (.readResponse cap b) s = .next t ∧ t.sel = .released ∧ t.pendingOp = some p ∧
      ((t.phase = .idle ∧ ((∃ n, t.result = some (.okCount n)) ∨ t.result = some (.err .timeout) ∨
          t.result = some (.err .invalidFrame) ∨ t.result = some (.err .noSpace))) ∨
        (b = 0#16 ∧ t.phase = .poll ∧ t.result = none))

/-- Derived from R11, R26, R93 and R94: the frame of READ_RESPONSE, at its issue and at a later step of its poll loop. It
stores at indices 0 to `EFF - 1`; every other index of RBUF, and every index at or above `CAP`, reads as before. That `EFF`,
`POLLS` and `ACKBUF` keep their values after the operation is the model's reading (log entry 13). -/
def Obligations.ReadResponseFrame : Prop :=
  ∀ (s t : State) (cap : BitVec 8) (b : BitVec 16), Memory.wf s.rbuf = true →
    (exec (.readResponse cap b) s = .next t ∨
      (s.phase = .poll ∧ s.port = none ∧ s.op = some (.readResponse cap b) ∧ step s = .next t)) →
    t.pendingOp = s.pendingOp ∧ t.ackRetries = s.ackRetries ∧ t.rbufSize = s.rbufSize ∧
    t.port = s.port ∧ t.agenda = s.agenda ∧ (s.phase = .poll → t.polls = s.polls ∧ t.ackBuf = s.ackBuf) ∧
    (∀ a, Memory.read t.cmd a = Memory.read s.cmd a) ∧
    ∀ a, (cap.toNat ≤ a ∨ (∀ e, t.eff = some e → e ≤ a)) → Memory.read t.rbuf a = Memory.read s.rbuf a

/-- Derived from R20, R49 and R26: the count READ_RESPONSE returns is at most 253 and at most `CAP`, whether it ends in the
step of its issue or in a later step of its wait. -/
def Obligations.ResponseCountBounded : Prop :=
  ∀ (s t : State) (cap : BitVec 8) (b : BitVec 16) (n : Nat),
    (exec (.readResponse cap b) s = .next t ∨ (LaterStep (.readResponse cap b) s t ∧ t.phase = .idle)) →
    t.result = some (.okCount n) → n ≤ 253 ∧ n ≤ cap.toNat

/-- R125: beside its frame WRITE_COMMAND makes at most `ACK_RETRIES` polls, then at most its acknowledgment; READ_RESPONSE
with `T > 0` makes at most `T + 1` polls, then at most 262 reads, also where it faults for want of a pending opcode; every
other operation ends after a fixed number of events. -/
def Obligations.BoundedWaitsEnd : Prop :=
  ∀ s : State, Accepting s →
    (∀ n : BitVec 8, n ≠ 0#8 → n ≠ 255#8 →
      ∃ t new, exec (.writeCommand n) s = .next t ∧ t.phase = .idle ∧
        t.trace = s.trace ++ frameBracket (envelope (dataBytes s n.toNat)) ++ new ∧ PollsThenReads new s.ackRetries 6) ∧
    (∀ (cap : BitVec 8) (b : BitVec 16), cap.toNat ≤ s.rbufSize → b ≠ 0#16 →
      ∃ t new, ((exec (.readResponse cap b) s = .next t ∧ t.phase = .idle) ∨
          exec (.readResponse cap b) s = .fault (.noPendingOpcode t)) ∧
        t.trace = s.trace ++ new ∧ PollsThenReads new (b.toNat + 1) 262) ∧
    (∃ t, exec .isReady s = .next t ∧ t.phase = .idle ∧ t.trace.length = s.trace.length + 4) ∧
    (∀ n : BitVec 8, n ≠ 255#8 →
      ∃ t, exec (.writeFrame n) s = .next t ∧ t.phase = .idle ∧ t.trace.length = s.trace.length + n.toNat + 12) ∧
    (∃ t, exec .readAck s = .next t ∧ t.phase = .idle ∧ t.trace.length = s.trace.length + 9) ∧
    ∃ t, exec .wake s = .next t ∧ t.phase = .idle ∧ t.trace.length = s.trace.length + 3

/-! ### WAKE -/

/-- R120: WAKE from every accepting state, also after an earlier WAKE. -/
def Obligations.WakeResult : Prop :=
  encode .wake = 0x00000041#32 ∧
  ∀ s : State, Accepting s →
    ∃ t, exec .wake s = .next t ∧ t.result = some .okUnit ∧ t.trace = s.trace ++ [.sel, .hold .wake, .rel] ∧
      t.sel = .released ∧ t.phase = .idle ∧ t.pendingOp = s.pendingOp

/-! ### Errors, results, faults, refusals -/

/-- R57: the result word. -/
def Obligations.ResultWords : Prop :=
  resultWord .okUnit = 0#16 ∧ resultWord (.okBool true) = 1#16 ∧ resultWord (.okBool false) = 0#16 ∧
  (∀ n, n ≤ 253 → (resultWord (.okCount n)).toNat = n ∧ (resultWord (.okCount n)).toInt = n) ∧
  resultWord (.err .invalidAck) = 0xFFFF#16 ∧ resultWord (.err .timeout) = 0xFFFE#16 ∧
  resultWord (.err .invalidFrame) = 0xFFFD#16 ∧ resultWord (.err .noSpace) = 0xFFFC#16 ∧
  ∀ r n, r = .okCount n ∧ n ≤ 253 ∨ (∃ b, r = .okBool b) ∨ r = .okUnit ∨ (∃ e, r = .err e) →
    ((resultWord r).toInt < 0 ↔ ∃ e, r = .err e)

/-- Derived from 10_state.md section 3, R14 to R19, R61, R67, R74, R76, R81 and R120: after an operation has answered a next
state, the working registers it does not write hold no value, and those it writes hold one. What they hold between operations
is the model's reading (log entry 13). -/
def Obligations.WorkingRegistersByOperation : Prop :=
  ∀ (i : Instr) (s t : State), exec i s = .next t →
    match i with
    | .isReady => SectionUnset t ∧ t.acc = none ∧ t.len = none ∧ t.polls = none ∧ t.elapsed = none ∧ t.ackBuf = AckBuf.empty
    | .writeFrame _ =>
      SectionUnset t ∧ t.acc.isSome ∧ t.len.isSome ∧ t.polls = none ∧ t.elapsed = none ∧ t.ackBuf = AckBuf.empty
    | .writeCommand _ => SectionUnset t ∧ t.acc.isSome ∧ t.len.isSome ∧ t.polls.isSome ∧ t.elapsed = none
    | .readAck => SectionUnset t ∧ t.acc = none ∧ t.len = none ∧ t.polls = none ∧ t.elapsed = none
    | .readResponse _ _ => t.polls = none ∧ t.elapsed.isSome ∧ t.ackBuf = AckBuf.empty
    | .wake => SectionUnset t ∧ t.acc = none ∧ t.len = none ∧ t.polls = none ∧ t.elapsed = none ∧ t.ackBuf = AckBuf.empty

/-- Derived from R20, R69, R76, R81 and R98: which results an operation that ends can have, whether it ends in the step of its
issue or in a later step of its wait. -/
def Obligations.ResultsByOperation : Prop :=
  ∀ (i : Instr) (s t : State) (r : Result),
    (exec i s = .next t ∨ (LaterStep i s t ∧ t.phase = .idle)) → t.result = some r →
    match i with
    | .isReady => ∃ b, r = .okBool b
    | .writeFrame _ => r = .okUnit
    | .writeCommand _ => r = .okUnit ∨ r = .err .timeout ∨ r = .err .invalidAck
    | .readAck => ∃ b, r = .okBool b
    | .readResponse _ _ => (∃ n, r = .okCount n) ∨ r = .err .timeout ∨ r = .err .invalidFrame ∨ r = .err .noSpace
    | .wake => r = .okUnit

/-- Derived from R103 and R107: an operation that ends, with an error or not, leaves the block idle, select released and
ready for the next operation; only an unbounded wait does not end. -/
def Obligations.EndedOperationLeavesBlockIdle : Prop :=
  ∀ (i : Instr) (s t : State), exec i s = .next t →
    (t.sel = .released ∧ (∃ r, t.result = some r) ∧ t.phase = .idle ∧ t.op = none ∧ Accepting t) ∨
    (t.sel = .released ∧ t.result = none ∧ t.phase = .poll ∧ t.op = some i ∧ ∃ cap, i = .readResponse cap 0#16)

/-- Derived from R105; that `ACK_RETRIES = 0` refuses every issue, and which reason is given where several hold, are the
model's choices (log entries 10 and 11). -/
def Obligations.RefusedExactly : Prop :=
  ∀ (i : Instr) (s : State), (∃ r, exec i s = .refused r) ↔
    s.phase ≠ .idle ∨ i.wellFormed = false ∨ s.ackRetries = 0 ∨ (∃ cap t, i = .readResponse cap t ∧ s.rbufSize < cap.toNat)

/-- Derived from R104, R86 and R106: the one fault. From a resting state a step faults only as NoPendingOpcode, while
`PENDING_OP` holds ⊥, in the read section of a READ_RESPONSE, after the 7 reads of its header. -/
def Obligations.OnlyFaultIsNoPendingOpcode : Prop :=
  ∀ (s : State) (f : Fault), Resting s → step s = .fault f →
    ∃ u, f = .noPendingOpcode u ∧ s.pendingOp = none ∧ u.pendingOp = none ∧ u.sel = .asserted ∧
      ∃ pre bytes, u.trace = s.trace ++ pre ++ openReadSection bytes ∧ bytes.length = 7

/-! ### Whole-machine rules -/

/-- Derived from R11: only WRITE_COMMAND writes `PENDING_OP`. -/
def Obligations.OnlyWriteCommandSetsPendingOp : Prop :=
  (∀ (i : Instr) (s t : State), exec i s = .next t → (∀ n, i ≠ .writeCommand n) → t.pendingOp = s.pendingOp) ∧
  ∀ s t, step s = .next t → t.pendingOp ≠ s.pendingOp → t.pendingOp = some (Memory.read s.cmd 0)

/-- Derived from R25, R26 and R39: no operation writes CMD, and only READ_RESPONSE writes RBUF. -/
def Obligations.ArraysWrittenOnlyByRule : Prop :=
  ∀ (i : Instr) (s t : State), exec i s = .next t →
    t.cmd = s.cmd ∧ t.rbufSize = s.rbufSize ∧ (t.rbuf ≠ s.rbuf → ∃ cap b, i = .readResponse cap b)

/-- Derived from R31, R33 and R36: a step only adds events, and it consumes one draw for every byte it receives. -/
def Obligations.StepExtendsTrace : Prop :=
  ∀ s t, step s = .next t →
    ∃ new, t.trace = s.trace ++ new ∧ t.draws = s.draws + new.countP receivesByte ∧
      t.peer = s.peer.drop (new.countP receivesByte)

/-- Derived from R12, R13, R64 and R65: every step leaves the block idle, or in the poll loop of an unbounded wait, with
select released, from a state in which it is so. -/
def Obligations.StepKeepsResting : Prop :=
  ∀ s t, Resting s → step s = .next t → Resting t

/-- Derived from R25, R26 and log entry 4: every step keeps CMD and RBUF canonical, and RBUF within its length. -/
def Obligations.StepKeepsMemories : Prop :=
  ∀ s t, Resting s → MemoriesKept s → step s = .next t → MemoriesKept t

/-- Derived from R28, R42, R65, R78 and R83: every step keeps the discipline of the select line: brackets open with a
request byte or are WAKE's, the block sends only after 0x01 and receives only after 0x02 and 0x03, sleeps only between
brackets, and has released select. -/
def Obligations.StepKeepsBusDiscipline : Prop :=
  ∀ s t, busAfter s.trace = .released → step s = .next t → busAfter t.trace = .released

/-- Derived from R116 and R117: the invariants hold at reset. -/
def Obligations.ResetMeetsInvariants : Prop :=
  Resting State.reset ∧ MemoriesKept State.reset ∧ busAfter State.reset.trace = .released
end

