-- ==== Sys2Proof/Laws/Issue.lean ====
section
/-! SUPPORT. What the issue of an operation does, said once: when it is refused (60_exceptions.md R105) and what it begins
otherwise. -/

namespace Sys2Proof.Machine

/-- Nothing refuses the issue exactly when the block is idle and configured, the operand is in range and RBUF is long
enough. -/
theorem refusalOf_eq_none {i : Instr} {s : State} :
    refusalOf i s = none ↔ Accepting s ∧ i.wellFormed = true ∧ bufferNeed i ≤ s.rbufSize := by
  simp only [refusalOf, Accepting]
  repeat' split
  all_goals simp_all

/-- An issue that nothing refuses runs the operation from its start. -/
theorem issue_of_accepting {i : Instr} {s : State} {body : State → Host.Outcome State Fault Refusal} (h : Accepting s)
    (hw : i.wellFormed = true) (hb : bufferNeed i ≤ s.rbufSize) : issue i s body = body (s.start i) := by
  rw [issue, refusalOf_eq_none.2 ⟨h, hw, hb⟩]

/-- If an issue answers a next state, nothing refused it and the operation's body answered it. -/
theorem issue_next {i : Instr} {s t : State} {body : State → Host.Outcome State Fault Refusal}
    (h : issue i s body = .next t) :
    Accepting s ∧ i.wellFormed = true ∧ bufferNeed i ≤ s.rbufSize ∧ body (s.start i) = .next t := by
  unfold issue at h
  split at h
  · cases h
  · next hr => exact ⟨(refusalOf_eq_none.1 hr).1, (refusalOf_eq_none.1 hr).2.1, (refusalOf_eq_none.1 hr).2.2, h⟩

/-- If an issue faults, nothing refused it and the operation's body faulted. -/
theorem issue_fault {i : Instr} {s : State} {f : Fault} {body : State → Host.Outcome State Fault Refusal}
    (h : issue i s body = .fault f) :
    Accepting s ∧ i.wellFormed = true ∧ bufferNeed i ≤ s.rbufSize ∧ body (s.start i) = .fault f := by
  unfold issue at h
  split at h
  · cases h
  · next hr => exact ⟨(refusalOf_eq_none.1 hr).1, (refusalOf_eq_none.1 hr).2.1, (refusalOf_eq_none.1 hr).2.2, h⟩

/-- An issue is refused for the reason `refusalOf` gives, or by the operation's body. -/
theorem issue_refused {i : Instr} {s : State} {r : Refusal} {body : State → Host.Outcome State Fault Refusal}
    (h : issue i s body = .refused r) :
    refusalOf i s = some r ∨ (refusalOf i s = none ∧ body (s.start i) = .refused r) := by
  unfold issue at h
  split at h
  · next hr => cases h; exact .inl hr
  · next hr => exact .inr ⟨hr, h⟩

/-- Every operation is an issue: a next state comes from an accepting state, a well-formed operation and a long enough
RBUF. -/
theorem exec_next_accepting {i : Instr} {s t : State} (h : exec i s = .next t) :
    Accepting s ∧ i.wellFormed = true ∧ bufferNeed i ≤ s.rbufSize := by
  cases i <;>
    simp only [exec, execIsReady, execWriteFrame, execWriteCommand, execReadAck, execReadResponse, execWake] at h <;>
    exact ⟨(issue_next h).1, (issue_next h).2.1, (issue_next h).2.2.1⟩

/-- A fault comes from an accepting state, a well-formed operation and a long enough RBUF. -/
theorem exec_fault_accepting {i : Instr} {s : State} {f : Fault} (h : exec i s = .fault f) :
    Accepting s ∧ i.wellFormed = true ∧ bufferNeed i ≤ s.rbufSize := by
  cases i <;>
    simp only [exec, execIsReady, execWriteFrame, execWriteCommand, execReadAck, execReadResponse, execWake] at h <;>
    exact ⟨(issue_fault h).1, (issue_fault h).2.1, (issue_fault h).2.2.1⟩

end Sys2Proof.Machine
end

