-- ==== Sys2Proof/Laws/Memory.lean ====
section
/-! SUPPORT. The laws of the caller's byte arrays: a read after a write, and that every operation keeps the canonical
form. -/

namespace Sys2Proof.Machine

theorem Memory.read_cell (a b' : Nat) (b : Byte) (m : Memory) :
    Memory.read (Memory.cell a b ++ m) b' =
      if b' = a then (if b = Config.unlistedByte then Memory.read m b' else b) else Memory.read m b' := by
  by_cases h : b = Config.unlistedByte <;> simp [Memory.cell, h, Memory.read]

/-- Below its first index an array reads as unlisted. -/
theorem Memory.read_of_wfFrom : ∀ {m : Memory} {lo a : Nat}, Memory.wfFrom lo m = true → a < lo →
    Memory.read m a = Config.unlistedByte
  | [], _, _, _, _ => rfl
  | (i, b) :: m, lo, a, h, ha => by
    simp only [Memory.wfFrom, Bool.and_eq_true, decide_eq_true_eq] at h
    have hi : a ≠ i := by omega
    simp only [Memory.read, hi, if_false]
    exact Memory.read_of_wfFrom h.2 (by omega)

theorem Memory.wfFrom_mono : ∀ {m : Memory} {lo lo' : Nat}, Memory.wfFrom lo m = true → lo' ≤ lo →
    Memory.wfFrom lo' m = true
  | [], _, _, _, _ => rfl
  | (i, b) :: m, lo, lo', h, hl => by
    simp only [Memory.wfFrom, Bool.and_eq_true, decide_eq_true_eq] at h ⊢
    exact ⟨⟨by omega, h.1.2⟩, h.2⟩

theorem Memory.wfFrom_cell {m : Memory} {lo a : Nat} {b : Byte} (h : Memory.wfFrom (a + 1) m = true) (ha : lo ≤ a) :
    Memory.wfFrom lo (Memory.cell a b ++ m) = true := by
  by_cases hb : b = Config.unlistedByte
  · simpa [Memory.cell, hb] using Memory.wfFrom_mono h (by omega)
  · simp [Memory.cell, hb, Memory.wfFrom, ha, h]

theorem Memory.wfFrom_write : ∀ {m : Memory} {lo a : Nat} {b : Byte}, Memory.wfFrom lo m = true → lo ≤ a →
    Memory.wfFrom lo (Memory.write m a b) = true
  | [], lo, a, b, _, ha => by simpa [Memory.write] using Memory.wfFrom_cell (m := []) (b := b) rfl ha
  | (i, c) :: m, lo, a, b, h, ha => by
    simp only [Memory.wfFrom, Bool.and_eq_true, decide_eq_true_eq] at h
    obtain ⟨⟨hi, hc⟩, hm⟩ := h
    unfold Memory.write
    split
    · exact Memory.wfFrom_cell (by simp [Memory.wfFrom, hc, hm]; omega) ha
    · split
      · next heq => subst heq; exact Memory.wfFrom_cell hm ha
      · simp only [Memory.wfFrom, Bool.and_eq_true, decide_eq_true_eq]
        exact ⟨⟨hi, hc⟩, Memory.wfFrom_write hm (by omega)⟩

/-- A write keeps the canonical form. -/
theorem Memory.wf_write {m : Memory} {a : Nat} {b : Byte} (h : Memory.wf m = true) :
    Memory.wf (Memory.write m a b) = true := Memory.wfFrom_write h (Nat.zero_le a)

/-- A read after a write, in one equation. -/
theorem Memory.read_write_from : ∀ {m : Memory} {lo : Nat} (a a' : Nat) (b : Byte), Memory.wfFrom lo m = true →
    Memory.read (Memory.write m a b) a' = if a' = a then b else Memory.read m a'
  | [], _, a, a', b, _ => by
    rw [Memory.write, ← List.append_nil (Memory.cell a b), Memory.read_cell]
    by_cases hb : b = Config.unlistedByte <;> simp [Memory.read, hb]
  | (i, c) :: m, lo, a, a', b, h => by
    simp only [Memory.wfFrom, Bool.and_eq_true, decide_eq_true_eq] at h
    obtain ⟨⟨hi, hc⟩, hm⟩ := h
    unfold Memory.write
    split
    · next hlt =>
      rw [Memory.read_cell]
      by_cases ha : a' = a
      · subst ha
        have hne : a' ≠ i := by omega
        by_cases hb : b = Config.unlistedByte
        · simp only [if_true, hb, Memory.read, hne, if_false]
          exact Memory.read_of_wfFrom hm (by omega)
        · simp [hb]
      · simp [ha]
    · split
      · next heq =>
        subst heq
        rw [Memory.read_cell]
        by_cases ha : a' = a
        · subst ha
          by_cases hb : b = Config.unlistedByte
          · simp only [if_true, hb]; exact Memory.read_of_wfFrom hm (by omega)
          · simp [hb]
        · simp [ha, Memory.read]
      · simp only [Memory.read]
        split
        · next h1 => subst h1; have : a' ≠ a := by omega
                     simp [this]
        · exact Memory.read_write_from a a' b hm

/-- A read after a write to the same or another index of a canonical array. -/
theorem Memory.read_write {m : Memory} (h : Memory.wf m = true) (a a' : Nat) (b : Byte) :
    Memory.read (Memory.write m a b) a' = if a' = a then b else Memory.read m a' := Memory.read_write_from a a' b h

theorem Memory.wfFrom_ofBytes : ∀ (bytes : List Byte) (i : Nat), Memory.wfFrom i (Memory.ofBytes i bytes) = true
  | [], _ => rfl
  | _ :: bs, i => Memory.wfFrom_write (Memory.wfFrom_mono (Memory.wfFrom_ofBytes bs (i + 1)) (by omega)) (by omega)

/-- What the caller supplies is canonical. -/
theorem Memory.wf_ofBytes (bytes : List Byte) : Memory.wf (Memory.ofBytes 0 bytes) = true := Memory.wfFrom_ofBytes bytes 0

/-- The indices of an array after a write are those before and the one written. -/
theorem Memory.mem_write : ∀ {m : Memory} {a : Nat} {b : Byte} {c : Host.Cell}, c ∈ Memory.write m a b →
    c ∈ m ∨ c = (a, b)
  | [], a, b, c, h => by
    by_cases hb : b = Config.unlistedByte <;> simp [Memory.write, Memory.cell, hb] at h
    exact .inr h
  | (i, d) :: m, a, b, c, h => by
    unfold Memory.write at h
    have hcell : c ∈ Memory.cell a b → c = (a, b) := by
      by_cases hb : b = Config.unlistedByte <;> simp [Memory.cell, hb]
    split at h
    · rcases List.mem_append.1 h with h | h
      · exact .inr (hcell h)
      · exact .inl h
    · split at h
      · rcases List.mem_append.1 h with h | h
        · exact .inr (hcell h)
        · exact .inl (List.mem_cons_of_mem _ h)
      · rcases List.mem_cons.1 h with h | h
        · exact .inl (h ▸ List.mem_cons_self)
        · rcases Memory.mem_write h with h | h
          · exact .inl (List.mem_cons_of_mem _ h)
          · exact .inr h

/-- No index of what the caller supplies is at or beyond its length. -/
theorem Memory.index_ofBytes : ∀ (bytes : List Byte) (i : Nat) {c : Host.Cell}, c ∈ Memory.ofBytes i bytes →
    c.1 < i + bytes.length
  | [], _, _, h => by simp [Memory.ofBytes] at h
  | b :: bs, i, c, h => by
    rcases Memory.mem_write (show c ∈ Memory.write (Memory.ofBytes (i + 1) bs) i b from h) with h | h
    · have := Memory.index_ofBytes bs (i + 1) h
      simp only [List.length_cons]; omega
    · subst h; simp

end Sys2Proof.Machine
end

