-- ==== Sys2Proof/Laws/State.lean ====
section
/-! SUPPORT. One lemma per field per named update of the state, each true by rfl, so that no later proof unfolds a record
update; and what each update does to the draws still to come. -/

namespace Sys2Proof.Machine

@[simp] theorem State.emit_pendingOp (s : State) (e : Event) : (s.emit e).pendingOp = s.pendingOp := rfl
@[simp] theorem State.emit_phase (s : State) (e : Event) : (s.emit e).phase = s.phase := rfl
@[simp] theorem State.emit_sel (s : State) (e : Event) : (s.emit e).sel = s.sel := rfl
@[simp] theorem State.emit_acc (s : State) (e : Event) : (s.emit e).acc = s.acc := rfl
@[simp] theorem State.emit_len (s : State) (e : Event) : (s.emit e).len = s.len := rfl
@[simp] theorem State.emit_lcsRx (s : State) (e : Event) : (s.emit e).lcsRx = s.lcsRx := rfl
@[simp] theorem State.emit_tfiRx (s : State) (e : Event) : (s.emit e).tfiRx = s.tfiRx := rfl
@[simp] theorem State.emit_cmdRx (s : State) (e : Event) : (s.emit e).cmdRx = s.cmdRx := rfl
@[simp] theorem State.emit_eff (s : State) (e : Event) : (s.emit e).eff = s.eff := rfl
@[simp] theorem State.emit_polls (s : State) (e : Event) : (s.emit e).polls = s.polls := rfl
@[simp] theorem State.emit_elapsed (s : State) (e : Event) : (s.emit e).elapsed = s.elapsed := rfl
@[simp] theorem State.emit_ackBuf (s : State) (e : Event) : (s.emit e).ackBuf = s.ackBuf := rfl
@[simp] theorem State.emit_result (s : State) (e : Event) : (s.emit e).result = s.result := rfl
@[simp] theorem State.emit_ackRetries (s : State) (e : Event) : (s.emit e).ackRetries = s.ackRetries := rfl
@[simp] theorem State.emit_cmd (s : State) (e : Event) : (s.emit e).cmd = s.cmd := rfl
@[simp] theorem State.emit_rbuf (s : State) (e : Event) : (s.emit e).rbuf = s.rbuf := rfl
@[simp] theorem State.emit_rbufSize (s : State) (e : Event) : (s.emit e).rbufSize = s.rbufSize := rfl
@[simp] theorem State.emit_trace (s : State) (e : Event) : (s.emit e).trace = s.trace ++ [e] := rfl
@[simp] theorem State.emit_op (s : State) (e : Event) : (s.emit e).op = s.op := rfl
@[simp] theorem State.emit_port (s : State) (e : Event) : (s.emit e).port = s.port := rfl
@[simp] theorem State.emit_agenda (s : State) (e : Event) : (s.emit e).agenda = s.agenda := rfl
@[simp] theorem State.emit_peer (s : State) (e : Event) : (s.emit e).peer = s.peer := rfl
@[simp] theorem State.emit_draws (s : State) (e : Event) : (s.emit e).draws = s.draws := rfl
@[simp] theorem State.emit_upcoming (s : State) (e : Event) (j : Nat) : (s.emit e).upcoming j = s.upcoming j := rfl
@[simp] theorem State.emit_answer (s : State) (e : Event) : (s.emit e).answer = s.answer := rfl
@[simp] theorem State.emit_readCmd (s : State) (e : Event) (j : Nat) : (s.emit e).readCmd j = s.readCmd j := rfl
@[simp] theorem State.emit_answers (s : State) (e : Event) (i n : Nat) : (s.emit e).answers i n = s.answers i n := rfl

@[simp] theorem State.selAssert_pendingOp (s : State) : (s.selAssert).pendingOp = s.pendingOp := rfl
@[simp] theorem State.selAssert_phase (s : State) : (s.selAssert).phase = s.phase := rfl
@[simp] theorem State.selAssert_sel (s : State) : (s.selAssert).sel = .asserted := rfl
@[simp] theorem State.selAssert_acc (s : State) : (s.selAssert).acc = s.acc := rfl
@[simp] theorem State.selAssert_len (s : State) : (s.selAssert).len = s.len := rfl
@[simp] theorem State.selAssert_lcsRx (s : State) : (s.selAssert).lcsRx = s.lcsRx := rfl
@[simp] theorem State.selAssert_tfiRx (s : State) : (s.selAssert).tfiRx = s.tfiRx := rfl
@[simp] theorem State.selAssert_cmdRx (s : State) : (s.selAssert).cmdRx = s.cmdRx := rfl
@[simp] theorem State.selAssert_eff (s : State) : (s.selAssert).eff = s.eff := rfl
@[simp] theorem State.selAssert_polls (s : State) : (s.selAssert).polls = s.polls := rfl
@[simp] theorem State.selAssert_elapsed (s : State) : (s.selAssert).elapsed = s.elapsed := rfl
@[simp] theorem State.selAssert_ackBuf (s : State) : (s.selAssert).ackBuf = s.ackBuf := rfl
@[simp] theorem State.selAssert_result (s : State) : (s.selAssert).result = s.result := rfl
@[simp] theorem State.selAssert_ackRetries (s : State) : (s.selAssert).ackRetries = s.ackRetries := rfl
@[simp] theorem State.selAssert_cmd (s : State) : (s.selAssert).cmd = s.cmd := rfl
@[simp] theorem State.selAssert_rbuf (s : State) : (s.selAssert).rbuf = s.rbuf := rfl
@[simp] theorem State.selAssert_rbufSize (s : State) : (s.selAssert).rbufSize = s.rbufSize := rfl
@[simp] theorem State.selAssert_trace (s : State) : (s.selAssert).trace = s.trace ++ [.sel] := rfl
@[simp] theorem State.selAssert_op (s : State) : (s.selAssert).op = s.op := rfl
@[simp] theorem State.selAssert_port (s : State) : (s.selAssert).port = s.port := rfl
@[simp] theorem State.selAssert_agenda (s : State) : (s.selAssert).agenda = s.agenda := rfl
@[simp] theorem State.selAssert_peer (s : State) : (s.selAssert).peer = s.peer := rfl
@[simp] theorem State.selAssert_draws (s : State) : (s.selAssert).draws = s.draws := rfl
@[simp] theorem State.selAssert_upcoming (s : State) (j : Nat) : (s.selAssert).upcoming j = s.upcoming j := rfl
@[simp] theorem State.selAssert_answer (s : State) : (s.selAssert).answer = s.answer := rfl
@[simp] theorem State.selAssert_readCmd (s : State) (j : Nat) : (s.selAssert).readCmd j = s.readCmd j := rfl
@[simp] theorem State.selAssert_answers (s : State) (i n : Nat) : (s.selAssert).answers i n = s.answers i n := rfl

@[simp] theorem State.selRelease_pendingOp (s : State) : (s.selRelease).pendingOp = s.pendingOp := rfl
@[simp] theorem State.selRelease_phase (s : State) : (s.selRelease).phase = s.phase := rfl
@[simp] theorem State.selRelease_sel (s : State) : (s.selRelease).sel = .released := rfl
@[simp] theorem State.selRelease_acc (s : State) : (s.selRelease).acc = s.acc := rfl
@[simp] theorem State.selRelease_len (s : State) : (s.selRelease).len = s.len := rfl
@[simp] theorem State.selRelease_lcsRx (s : State) : (s.selRelease).lcsRx = s.lcsRx := rfl
@[simp] theorem State.selRelease_tfiRx (s : State) : (s.selRelease).tfiRx = s.tfiRx := rfl
@[simp] theorem State.selRelease_cmdRx (s : State) : (s.selRelease).cmdRx = s.cmdRx := rfl
@[simp] theorem State.selRelease_eff (s : State) : (s.selRelease).eff = s.eff := rfl
@[simp] theorem State.selRelease_polls (s : State) : (s.selRelease).polls = s.polls := rfl
@[simp] theorem State.selRelease_elapsed (s : State) : (s.selRelease).elapsed = s.elapsed := rfl
@[simp] theorem State.selRelease_ackBuf (s : State) : (s.selRelease).ackBuf = s.ackBuf := rfl
@[simp] theorem State.selRelease_result (s : State) : (s.selRelease).result = s.result := rfl
@[simp] theorem State.selRelease_ackRetries (s : State) : (s.selRelease).ackRetries = s.ackRetries := rfl
@[simp] theorem State.selRelease_cmd (s : State) : (s.selRelease).cmd = s.cmd := rfl
@[simp] theorem State.selRelease_rbuf (s : State) : (s.selRelease).rbuf = s.rbuf := rfl
@[simp] theorem State.selRelease_rbufSize (s : State) : (s.selRelease).rbufSize = s.rbufSize := rfl
@[simp] theorem State.selRelease_trace (s : State) : (s.selRelease).trace = s.trace ++ [.rel] := rfl
@[simp] theorem State.selRelease_op (s : State) : (s.selRelease).op = s.op := rfl
@[simp] theorem State.selRelease_port (s : State) : (s.selRelease).port = s.port := rfl
@[simp] theorem State.selRelease_agenda (s : State) : (s.selRelease).agenda = s.agenda := rfl
@[simp] theorem State.selRelease_peer (s : State) : (s.selRelease).peer = s.peer := rfl
@[simp] theorem State.selRelease_draws (s : State) : (s.selRelease).draws = s.draws := rfl
@[simp] theorem State.selRelease_upcoming (s : State) (j : Nat) : (s.selRelease).upcoming j = s.upcoming j := rfl
@[simp] theorem State.selRelease_answer (s : State) : (s.selRelease).answer = s.answer := rfl
@[simp] theorem State.selRelease_readCmd (s : State) (j : Nat) : (s.selRelease).readCmd j = s.readCmd j := rfl
@[simp] theorem State.selRelease_answers (s : State) (i n : Nat) : (s.selRelease).answers i n = s.answers i n := rfl

@[simp] theorem State.busTx_pendingOp (s : State) (b : Byte) : (s.busTx b).pendingOp = s.pendingOp := rfl
@[simp] theorem State.busTx_phase (s : State) (b : Byte) : (s.busTx b).phase = s.phase := rfl
@[simp] theorem State.busTx_sel (s : State) (b : Byte) : (s.busTx b).sel = s.sel := rfl
@[simp] theorem State.busTx_acc (s : State) (b : Byte) : (s.busTx b).acc = s.acc := rfl
@[simp] theorem State.busTx_len (s : State) (b : Byte) : (s.busTx b).len = s.len := rfl
@[simp] theorem State.busTx_lcsRx (s : State) (b : Byte) : (s.busTx b).lcsRx = s.lcsRx := rfl
@[simp] theorem State.busTx_tfiRx (s : State) (b : Byte) : (s.busTx b).tfiRx = s.tfiRx := rfl
@[simp] theorem State.busTx_cmdRx (s : State) (b : Byte) : (s.busTx b).cmdRx = s.cmdRx := rfl
@[simp] theorem State.busTx_eff (s : State) (b : Byte) : (s.busTx b).eff = s.eff := rfl
@[simp] theorem State.busTx_polls (s : State) (b : Byte) : (s.busTx b).polls = s.polls := rfl
@[simp] theorem State.busTx_elapsed (s : State) (b : Byte) : (s.busTx b).elapsed = s.elapsed := rfl
@[simp] theorem State.busTx_ackBuf (s : State) (b : Byte) : (s.busTx b).ackBuf = s.ackBuf := rfl
@[simp] theorem State.busTx_result (s : State) (b : Byte) : (s.busTx b).result = s.result := rfl
@[simp] theorem State.busTx_ackRetries (s : State) (b : Byte) : (s.busTx b).ackRetries = s.ackRetries := rfl
@[simp] theorem State.busTx_cmd (s : State) (b : Byte) : (s.busTx b).cmd = s.cmd := rfl
@[simp] theorem State.busTx_rbuf (s : State) (b : Byte) : (s.busTx b).rbuf = s.rbuf := rfl
@[simp] theorem State.busTx_rbufSize (s : State) (b : Byte) : (s.busTx b).rbufSize = s.rbufSize := rfl
@[simp] theorem State.busTx_trace (s : State) (b : Byte) : (s.busTx b).trace = s.trace ++ [.tx b] := rfl
@[simp] theorem State.busTx_op (s : State) (b : Byte) : (s.busTx b).op = s.op := rfl
@[simp] theorem State.busTx_port (s : State) (b : Byte) : (s.busTx b).port = s.port := rfl
@[simp] theorem State.busTx_agenda (s : State) (b : Byte) : (s.busTx b).agenda = s.agenda := rfl
@[simp] theorem State.busTx_peer (s : State) (b : Byte) : (s.busTx b).peer = s.peer := rfl
@[simp] theorem State.busTx_draws (s : State) (b : Byte) : (s.busTx b).draws = s.draws := rfl
@[simp] theorem State.busTx_upcoming (s : State) (b : Byte) (j : Nat) : (s.busTx b).upcoming j = s.upcoming j := rfl
@[simp] theorem State.busTx_answer (s : State) (b : Byte) : (s.busTx b).answer = s.answer := rfl
@[simp] theorem State.busTx_readCmd (s : State) (b : Byte) (j : Nat) : (s.busTx b).readCmd j = s.readCmd j := rfl
@[simp] theorem State.busTx_answers (s : State) (b : Byte) (i n : Nat) : (s.busTx b).answers i n = s.answers i n := rfl

@[simp] theorem State.sleep_pendingOp (s : State) (n : Nat) : (s.sleep n).pendingOp = s.pendingOp := rfl
@[simp] theorem State.sleep_phase (s : State) (n : Nat) : (s.sleep n).phase = s.phase := rfl
@[simp] theorem State.sleep_sel (s : State) (n : Nat) : (s.sleep n).sel = s.sel := rfl
@[simp] theorem State.sleep_acc (s : State) (n : Nat) : (s.sleep n).acc = s.acc := rfl
@[simp] theorem State.sleep_len (s : State) (n : Nat) : (s.sleep n).len = s.len := rfl
@[simp] theorem State.sleep_lcsRx (s : State) (n : Nat) : (s.sleep n).lcsRx = s.lcsRx := rfl
@[simp] theorem State.sleep_tfiRx (s : State) (n : Nat) : (s.sleep n).tfiRx = s.tfiRx := rfl
@[simp] theorem State.sleep_cmdRx (s : State) (n : Nat) : (s.sleep n).cmdRx = s.cmdRx := rfl
@[simp] theorem State.sleep_eff (s : State) (n : Nat) : (s.sleep n).eff = s.eff := rfl
@[simp] theorem State.sleep_polls (s : State) (n : Nat) : (s.sleep n).polls = s.polls := rfl
@[simp] theorem State.sleep_elapsed (s : State) (n : Nat) : (s.sleep n).elapsed = s.elapsed := rfl
@[simp] theorem State.sleep_ackBuf (s : State) (n : Nat) : (s.sleep n).ackBuf = s.ackBuf := rfl
@[simp] theorem State.sleep_result (s : State) (n : Nat) : (s.sleep n).result = s.result := rfl
@[simp] theorem State.sleep_ackRetries (s : State) (n : Nat) : (s.sleep n).ackRetries = s.ackRetries := rfl
@[simp] theorem State.sleep_cmd (s : State) (n : Nat) : (s.sleep n).cmd = s.cmd := rfl
@[simp] theorem State.sleep_rbuf (s : State) (n : Nat) : (s.sleep n).rbuf = s.rbuf := rfl
@[simp] theorem State.sleep_rbufSize (s : State) (n : Nat) : (s.sleep n).rbufSize = s.rbufSize := rfl
@[simp] theorem State.sleep_trace (s : State) (n : Nat) : (s.sleep n).trace = s.trace ++ [.sleep n] := rfl
@[simp] theorem State.sleep_op (s : State) (n : Nat) : (s.sleep n).op = s.op := rfl
@[simp] theorem State.sleep_port (s : State) (n : Nat) : (s.sleep n).port = s.port := rfl
@[simp] theorem State.sleep_agenda (s : State) (n : Nat) : (s.sleep n).agenda = s.agenda := rfl
@[simp] theorem State.sleep_peer (s : State) (n : Nat) : (s.sleep n).peer = s.peer := rfl
@[simp] theorem State.sleep_draws (s : State) (n : Nat) : (s.sleep n).draws = s.draws := rfl
@[simp] theorem State.sleep_upcoming (s : State) (n : Nat) (j : Nat) : (s.sleep n).upcoming j = s.upcoming j := rfl
@[simp] theorem State.sleep_answer (s : State) (n : Nat) : (s.sleep n).answer = s.answer := rfl
@[simp] theorem State.sleep_readCmd (s : State) (n : Nat) (j : Nat) : (s.sleep n).readCmd j = s.readCmd j := rfl
@[simp] theorem State.sleep_answers (s : State) (n : Nat) (j m : Nat) : (s.sleep n).answers j m = s.answers j m := rfl

@[simp] theorem State.hold_pendingOp (s : State) (k : HoldKind) : (s.hold k).pendingOp = s.pendingOp := rfl
@[simp] theorem State.hold_phase (s : State) (k : HoldKind) : (s.hold k).phase = s.phase := rfl
@[simp] theorem State.hold_sel (s : State) (k : HoldKind) : (s.hold k).sel = s.sel := rfl
@[simp] theorem State.hold_acc (s : State) (k : HoldKind) : (s.hold k).acc = s.acc := rfl
@[simp] theorem State.hold_len (s : State) (k : HoldKind) : (s.hold k).len = s.len := rfl
@[simp] theorem State.hold_lcsRx (s : State) (k : HoldKind) : (s.hold k).lcsRx = s.lcsRx := rfl
@[simp] theorem State.hold_tfiRx (s : State) (k : HoldKind) : (s.hold k).tfiRx = s.tfiRx := rfl
@[simp] theorem State.hold_cmdRx (s : State) (k : HoldKind) : (s.hold k).cmdRx = s.cmdRx := rfl
@[simp] theorem State.hold_eff (s : State) (k : HoldKind) : (s.hold k).eff = s.eff := rfl
@[simp] theorem State.hold_polls (s : State) (k : HoldKind) : (s.hold k).polls = s.polls := rfl
@[simp] theorem State.hold_elapsed (s : State) (k : HoldKind) : (s.hold k).elapsed = s.elapsed := rfl
@[simp] theorem State.hold_ackBuf (s : State) (k : HoldKind) : (s.hold k).ackBuf = s.ackBuf := rfl
@[simp] theorem State.hold_result (s : State) (k : HoldKind) : (s.hold k).result = s.result := rfl
@[simp] theorem State.hold_ackRetries (s : State) (k : HoldKind) : (s.hold k).ackRetries = s.ackRetries := rfl
@[simp] theorem State.hold_cmd (s : State) (k : HoldKind) : (s.hold k).cmd = s.cmd := rfl
@[simp] theorem State.hold_rbuf (s : State) (k : HoldKind) : (s.hold k).rbuf = s.rbuf := rfl
@[simp] theorem State.hold_rbufSize (s : State) (k : HoldKind) : (s.hold k).rbufSize = s.rbufSize := rfl
@[simp] theorem State.hold_trace (s : State) (k : HoldKind) : (s.hold k).trace = s.trace ++ [.hold k] := rfl
@[simp] theorem State.hold_op (s : State) (k : HoldKind) : (s.hold k).op = s.op := rfl
@[simp] theorem State.hold_port (s : State) (k : HoldKind) : (s.hold k).port = s.port := rfl
@[simp] theorem State.hold_agenda (s : State) (k : HoldKind) : (s.hold k).agenda = s.agenda := rfl
@[simp] theorem State.hold_peer (s : State) (k : HoldKind) : (s.hold k).peer = s.peer := rfl
@[simp] theorem State.hold_draws (s : State) (k : HoldKind) : (s.hold k).draws = s.draws := rfl
@[simp] theorem State.hold_upcoming (s : State) (k : HoldKind) (j : Nat) : (s.hold k).upcoming j = s.upcoming j := rfl
@[simp] theorem State.hold_answer (s : State) (k : HoldKind) : (s.hold k).answer = s.answer := rfl
@[simp] theorem State.hold_readCmd (s : State) (k : HoldKind) (j : Nat) : (s.hold k).readCmd j = s.readCmd j := rfl
@[simp] theorem State.hold_answers (s : State) (k : HoldKind) (i n : Nat) : (s.hold k).answers i n = s.answers i n := rfl

@[simp] theorem State.busRx_pendingOp (s : State) : (s.busRx).pendingOp = s.pendingOp := rfl
@[simp] theorem State.busRx_phase (s : State) : (s.busRx).phase = s.phase := rfl
@[simp] theorem State.busRx_sel (s : State) : (s.busRx).sel = s.sel := rfl
@[simp] theorem State.busRx_acc (s : State) : (s.busRx).acc = s.acc := rfl
@[simp] theorem State.busRx_len (s : State) : (s.busRx).len = s.len := rfl
@[simp] theorem State.busRx_lcsRx (s : State) : (s.busRx).lcsRx = s.lcsRx := rfl
@[simp] theorem State.busRx_tfiRx (s : State) : (s.busRx).tfiRx = s.tfiRx := rfl
@[simp] theorem State.busRx_cmdRx (s : State) : (s.busRx).cmdRx = s.cmdRx := rfl
@[simp] theorem State.busRx_eff (s : State) : (s.busRx).eff = s.eff := rfl
@[simp] theorem State.busRx_polls (s : State) : (s.busRx).polls = s.polls := rfl
@[simp] theorem State.busRx_elapsed (s : State) : (s.busRx).elapsed = s.elapsed := rfl
@[simp] theorem State.busRx_ackBuf (s : State) : (s.busRx).ackBuf = s.ackBuf := rfl
@[simp] theorem State.busRx_result (s : State) : (s.busRx).result = s.result := rfl
@[simp] theorem State.busRx_ackRetries (s : State) : (s.busRx).ackRetries = s.ackRetries := rfl
@[simp] theorem State.busRx_cmd (s : State) : (s.busRx).cmd = s.cmd := rfl
@[simp] theorem State.busRx_rbuf (s : State) : (s.busRx).rbuf = s.rbuf := rfl
@[simp] theorem State.busRx_rbufSize (s : State) : (s.busRx).rbufSize = s.rbufSize := rfl
@[simp] theorem State.busRx_trace (s : State) : (s.busRx).trace = s.trace ++ [.rx s.answer] := rfl
@[simp] theorem State.busRx_op (s : State) : (s.busRx).op = s.op := rfl
@[simp] theorem State.busRx_port (s : State) : (s.busRx).port = s.port := rfl
@[simp] theorem State.busRx_agenda (s : State) : (s.busRx).agenda = s.agenda := rfl
@[simp] theorem State.busRx_peer (s : State) : (s.busRx).peer = s.peer.tail := rfl
@[simp] theorem State.busRx_draws (s : State) : (s.busRx).draws = s.draws + 1 := rfl
@[simp] theorem State.busRx_readCmd (s : State) (j : Nat) : s.busRx.readCmd j = s.readCmd j := rfl
/-- After a `BusRx()` the draws still to come are one fewer (R33: the next read gives the next byte). -/
@[simp] theorem State.busRx_upcoming (s : State) (j : Nat) : s.busRx.upcoming j = s.upcoming (j + 1) := by
  simp only [State.upcoming, State.busRx, List.getElem?_tail, Nat.add_assoc, Nat.add_comm 1 j]
@[simp] theorem State.busRx_answer (s : State) : s.busRx.answer = s.upcoming 1 := State.busRx_upcoming s 0

@[simp] theorem State.setPhase_pendingOp (s : State) (p : Phase) : (s.setPhase p).pendingOp = s.pendingOp := rfl
@[simp] theorem State.setPhase_phase (s : State) (p : Phase) : (s.setPhase p).phase = p := rfl
@[simp] theorem State.setPhase_sel (s : State) (p : Phase) : (s.setPhase p).sel = s.sel := rfl
@[simp] theorem State.setPhase_acc (s : State) (p : Phase) : (s.setPhase p).acc = s.acc := rfl
@[simp] theorem State.setPhase_len (s : State) (p : Phase) : (s.setPhase p).len = s.len := rfl
@[simp] theorem State.setPhase_lcsRx (s : State) (p : Phase) : (s.setPhase p).lcsRx = s.lcsRx := rfl
@[simp] theorem State.setPhase_tfiRx (s : State) (p : Phase) : (s.setPhase p).tfiRx = s.tfiRx := rfl
@[simp] theorem State.setPhase_cmdRx (s : State) (p : Phase) : (s.setPhase p).cmdRx = s.cmdRx := rfl
@[simp] theorem State.setPhase_eff (s : State) (p : Phase) : (s.setPhase p).eff = s.eff := rfl
@[simp] theorem State.setPhase_polls (s : State) (p : Phase) : (s.setPhase p).polls = s.polls := rfl
@[simp] theorem State.setPhase_elapsed (s : State) (p : Phase) : (s.setPhase p).elapsed = s.elapsed := rfl
@[simp] theorem State.setPhase_ackBuf (s : State) (p : Phase) : (s.setPhase p).ackBuf = s.ackBuf := rfl
@[simp] theorem State.setPhase_result (s : State) (p : Phase) : (s.setPhase p).result = s.result := rfl
@[simp] theorem State.setPhase_ackRetries (s : State) (p : Phase) : (s.setPhase p).ackRetries = s.ackRetries := rfl
@[simp] theorem State.setPhase_cmd (s : State) (p : Phase) : (s.setPhase p).cmd = s.cmd := rfl
@[simp] theorem State.setPhase_rbuf (s : State) (p : Phase) : (s.setPhase p).rbuf = s.rbuf := rfl
@[simp] theorem State.setPhase_rbufSize (s : State) (p : Phase) : (s.setPhase p).rbufSize = s.rbufSize := rfl
@[simp] theorem State.setPhase_trace (s : State) (p : Phase) : (s.setPhase p).trace = s.trace := rfl
@[simp] theorem State.setPhase_op (s : State) (p : Phase) : (s.setPhase p).op = s.op := rfl
@[simp] theorem State.setPhase_port (s : State) (p : Phase) : (s.setPhase p).port = s.port := rfl
@[simp] theorem State.setPhase_agenda (s : State) (p : Phase) : (s.setPhase p).agenda = s.agenda := rfl
@[simp] theorem State.setPhase_peer (s : State) (p : Phase) : (s.setPhase p).peer = s.peer := rfl
@[simp] theorem State.setPhase_draws (s : State) (p : Phase) : (s.setPhase p).draws = s.draws := rfl
@[simp] theorem State.setPhase_upcoming (s : State) (p : Phase) (j : Nat) : (s.setPhase p).upcoming j = s.upcoming j := rfl
@[simp] theorem State.setPhase_answer (s : State) (p : Phase) : (s.setPhase p).answer = s.answer := rfl
@[simp] theorem State.setPhase_readCmd (s : State) (p : Phase) (j : Nat) : (s.setPhase p).readCmd j = s.readCmd j := rfl
@[simp] theorem State.setPhase_answers (s : State) (p : Phase) (i n : Nat) : (s.setPhase p).answers i n = s.answers i n := rfl

@[simp] theorem State.setPendingOp_pendingOp (s : State) (b : Byte) : (s.setPendingOp b).pendingOp = some b := rfl
@[simp] theorem State.setPendingOp_phase (s : State) (b : Byte) : (s.setPendingOp b).phase = s.phase := rfl
@[simp] theorem State.setPendingOp_sel (s : State) (b : Byte) : (s.setPendingOp b).sel = s.sel := rfl
@[simp] theorem State.setPendingOp_acc (s : State) (b : Byte) : (s.setPendingOp b).acc = s.acc := rfl
@[simp] theorem State.setPendingOp_len (s : State) (b : Byte) : (s.setPendingOp b).len = s.len := rfl
@[simp] theorem State.setPendingOp_lcsRx (s : State) (b : Byte) : (s.setPendingOp b).lcsRx = s.lcsRx := rfl
@[simp] theorem State.setPendingOp_tfiRx (s : State) (b : Byte) : (s.setPendingOp b).tfiRx = s.tfiRx := rfl
@[simp] theorem State.setPendingOp_cmdRx (s : State) (b : Byte) : (s.setPendingOp b).cmdRx = s.cmdRx := rfl
@[simp] theorem State.setPendingOp_eff (s : State) (b : Byte) : (s.setPendingOp b).eff = s.eff := rfl
@[simp] theorem State.setPendingOp_polls (s : State) (b : Byte) : (s.setPendingOp b).polls = s.polls := rfl
@[simp] theorem State.setPendingOp_elapsed (s : State) (b : Byte) : (s.setPendingOp b).elapsed = s.elapsed := rfl
@[simp] theorem State.setPendingOp_ackBuf (s : State) (b : Byte) : (s.setPendingOp b).ackBuf = s.ackBuf := rfl
@[simp] theorem State.setPendingOp_result (s : State) (b : Byte) : (s.setPendingOp b).result = s.result := rfl
@[simp] theorem State.setPendingOp_ackRetries (s : State) (b : Byte) : (s.setPendingOp b).ackRetries = s.ackRetries := rfl
@[simp] theorem State.setPendingOp_cmd (s : State) (b : Byte) : (s.setPendingOp b).cmd = s.cmd := rfl
@[simp] theorem State.setPendingOp_rbuf (s : State) (b : Byte) : (s.setPendingOp b).rbuf = s.rbuf := rfl
@[simp] theorem State.setPendingOp_rbufSize (s : State) (b : Byte) : (s.setPendingOp b).rbufSize = s.rbufSize := rfl
@[simp] theorem State.setPendingOp_trace (s : State) (b : Byte) : (s.setPendingOp b).trace = s.trace := rfl
@[simp] theorem State.setPendingOp_op (s : State) (b : Byte) : (s.setPendingOp b).op = s.op := rfl
@[simp] theorem State.setPendingOp_port (s : State) (b : Byte) : (s.setPendingOp b).port = s.port := rfl
@[simp] theorem State.setPendingOp_agenda (s : State) (b : Byte) : (s.setPendingOp b).agenda = s.agenda := rfl
@[simp] theorem State.setPendingOp_peer (s : State) (b : Byte) : (s.setPendingOp b).peer = s.peer := rfl
@[simp] theorem State.setPendingOp_draws (s : State) (b : Byte) : (s.setPendingOp b).draws = s.draws := rfl
@[simp] theorem State.setPendingOp_upcoming (s : State) (b : Byte) (j : Nat) : (s.setPendingOp b).upcoming j = s.upcoming j := rfl
@[simp] theorem State.setPendingOp_answer (s : State) (b : Byte) : (s.setPendingOp b).answer = s.answer := rfl
@[simp] theorem State.setPendingOp_readCmd (s : State) (b : Byte) (j : Nat) : (s.setPendingOp b).readCmd j = s.readCmd j := rfl
@[simp] theorem State.setPendingOp_answers (s : State) (b : Byte) (i n : Nat) : (s.setPendingOp b).answers i n = s.answers i n := rfl

@[simp] theorem State.setAcc_pendingOp (s : State) (b : Byte) : (s.setAcc b).pendingOp = s.pendingOp := rfl
@[simp] theorem State.setAcc_phase (s : State) (b : Byte) : (s.setAcc b).phase = s.phase := rfl
@[simp] theorem State.setAcc_sel (s : State) (b : Byte) : (s.setAcc b).sel = s.sel := rfl
@[simp] theorem State.setAcc_acc (s : State) (b : Byte) : (s.setAcc b).acc = some b := rfl
@[simp] theorem State.setAcc_len (s : State) (b : Byte) : (s.setAcc b).len = s.len := rfl
@[simp] theorem State.setAcc_lcsRx (s : State) (b : Byte) : (s.setAcc b).lcsRx = s.lcsRx := rfl
@[simp] theorem State.setAcc_tfiRx (s : State) (b : Byte) : (s.setAcc b).tfiRx = s.tfiRx := rfl
@[simp] theorem State.setAcc_cmdRx (s : State) (b : Byte) : (s.setAcc b).cmdRx = s.cmdRx := rfl
@[simp] theorem State.setAcc_eff (s : State) (b : Byte) : (s.setAcc b).eff = s.eff := rfl
@[simp] theorem State.setAcc_polls (s : State) (b : Byte) : (s.setAcc b).polls = s.polls := rfl
@[simp] theorem State.setAcc_elapsed (s : State) (b : Byte) : (s.setAcc b).elapsed = s.elapsed := rfl
@[simp] theorem State.setAcc_ackBuf (s : State) (b : Byte) : (s.setAcc b).ackBuf = s.ackBuf := rfl
@[simp] theorem State.setAcc_result (s : State) (b : Byte) : (s.setAcc b).result = s.result := rfl
@[simp] theorem State.setAcc_ackRetries (s : State) (b : Byte) : (s.setAcc b).ackRetries = s.ackRetries := rfl
@[simp] theorem State.setAcc_cmd (s : State) (b : Byte) : (s.setAcc b).cmd = s.cmd := rfl
@[simp] theorem State.setAcc_rbuf (s : State) (b : Byte) : (s.setAcc b).rbuf = s.rbuf := rfl
@[simp] theorem State.setAcc_rbufSize (s : State) (b : Byte) : (s.setAcc b).rbufSize = s.rbufSize := rfl
@[simp] theorem State.setAcc_trace (s : State) (b : Byte) : (s.setAcc b).trace = s.trace := rfl
@[simp] theorem State.setAcc_op (s : State) (b : Byte) : (s.setAcc b).op = s.op := rfl
@[simp] theorem State.setAcc_port (s : State) (b : Byte) : (s.setAcc b).port = s.port := rfl
@[simp] theorem State.setAcc_agenda (s : State) (b : Byte) : (s.setAcc b).agenda = s.agenda := rfl
@[simp] theorem State.setAcc_peer (s : State) (b : Byte) : (s.setAcc b).peer = s.peer := rfl
@[simp] theorem State.setAcc_draws (s : State) (b : Byte) : (s.setAcc b).draws = s.draws := rfl
@[simp] theorem State.setAcc_upcoming (s : State) (b : Byte) (j : Nat) : (s.setAcc b).upcoming j = s.upcoming j := rfl
@[simp] theorem State.setAcc_answer (s : State) (b : Byte) : (s.setAcc b).answer = s.answer := rfl
@[simp] theorem State.setAcc_readCmd (s : State) (b : Byte) (j : Nat) : (s.setAcc b).readCmd j = s.readCmd j := rfl
@[simp] theorem State.setAcc_answers (s : State) (b : Byte) (i n : Nat) : (s.setAcc b).answers i n = s.answers i n := rfl

@[simp] theorem State.setLen_pendingOp (s : State) (b : Byte) : (s.setLen b).pendingOp = s.pendingOp := rfl
@[simp] theorem State.setLen_phase (s : State) (b : Byte) : (s.setLen b).phase = s.phase := rfl
@[simp] theorem State.setLen_sel (s : State) (b : Byte) : (s.setLen b).sel = s.sel := rfl
@[simp] theorem State.setLen_acc (s : State) (b : Byte) : (s.setLen b).acc = s.acc := rfl
@[simp] theorem State.setLen_len (s : State) (b : Byte) : (s.setLen b).len = some b := rfl
@[simp] theorem State.setLen_lcsRx (s : State) (b : Byte) : (s.setLen b).lcsRx = s.lcsRx := rfl
@[simp] theorem State.setLen_tfiRx (s : State) (b : Byte) : (s.setLen b).tfiRx = s.tfiRx := rfl
@[simp] theorem State.setLen_cmdRx (s : State) (b : Byte) : (s.setLen b).cmdRx = s.cmdRx := rfl
@[simp] theorem State.setLen_eff (s : State) (b : Byte) : (s.setLen b).eff = s.eff := rfl
@[simp] theorem State.setLen_polls (s : State) (b : Byte) : (s.setLen b).polls = s.polls := rfl
@[simp] theorem State.setLen_elapsed (s : State) (b : Byte) : (s.setLen b).elapsed = s.elapsed := rfl
@[simp] theorem State.setLen_ackBuf (s : State) (b : Byte) : (s.setLen b).ackBuf = s.ackBuf := rfl
@[simp] theorem State.setLen_result (s : State) (b : Byte) : (s.setLen b).result = s.result := rfl
@[simp] theorem State.setLen_ackRetries (s : State) (b : Byte) : (s.setLen b).ackRetries = s.ackRetries := rfl
@[simp] theorem State.setLen_cmd (s : State) (b : Byte) : (s.setLen b).cmd = s.cmd := rfl
@[simp] theorem State.setLen_rbuf (s : State) (b : Byte) : (s.setLen b).rbuf = s.rbuf := rfl
@[simp] theorem State.setLen_rbufSize (s : State) (b : Byte) : (s.setLen b).rbufSize = s.rbufSize := rfl
@[simp] theorem State.setLen_trace (s : State) (b : Byte) : (s.setLen b).trace = s.trace := rfl
@[simp] theorem State.setLen_op (s : State) (b : Byte) : (s.setLen b).op = s.op := rfl
@[simp] theorem State.setLen_port (s : State) (b : Byte) : (s.setLen b).port = s.port := rfl
@[simp] theorem State.setLen_agenda (s : State) (b : Byte) : (s.setLen b).agenda = s.agenda := rfl
@[simp] theorem State.setLen_peer (s : State) (b : Byte) : (s.setLen b).peer = s.peer := rfl
@[simp] theorem State.setLen_draws (s : State) (b : Byte) : (s.setLen b).draws = s.draws := rfl
@[simp] theorem State.setLen_upcoming (s : State) (b : Byte) (j : Nat) : (s.setLen b).upcoming j = s.upcoming j := rfl
@[simp] theorem State.setLen_answer (s : State) (b : Byte) : (s.setLen b).answer = s.answer := rfl
@[simp] theorem State.setLen_readCmd (s : State) (b : Byte) (j : Nat) : (s.setLen b).readCmd j = s.readCmd j := rfl
@[simp] theorem State.setLen_answers (s : State) (b : Byte) (i n : Nat) : (s.setLen b).answers i n = s.answers i n := rfl

@[simp] theorem State.setLcsRx_pendingOp (s : State) (b : Byte) : (s.setLcsRx b).pendingOp = s.pendingOp := rfl
@[simp] theorem State.setLcsRx_phase (s : State) (b : Byte) : (s.setLcsRx b).phase = s.phase := rfl
@[simp] theorem State.setLcsRx_sel (s : State) (b : Byte) : (s.setLcsRx b).sel = s.sel := rfl
@[simp] theorem State.setLcsRx_acc (s : State) (b : Byte) : (s.setLcsRx b).acc = s.acc := rfl
@[simp] theorem State.setLcsRx_len (s : State) (b : Byte) : (s.setLcsRx b).len = s.len := rfl
@[simp] theorem State.setLcsRx_lcsRx (s : State) (b : Byte) : (s.setLcsRx b).lcsRx = some b := rfl
@[simp] theorem State.setLcsRx_tfiRx (s : State) (b : Byte) : (s.setLcsRx b).tfiRx = s.tfiRx := rfl
@[simp] theorem State.setLcsRx_cmdRx (s : State) (b : Byte) : (s.setLcsRx b).cmdRx = s.cmdRx := rfl
@[simp] theorem State.setLcsRx_eff (s : State) (b : Byte) : (s.setLcsRx b).eff = s.eff := rfl
@[simp] theorem State.setLcsRx_polls (s : State) (b : Byte) : (s.setLcsRx b).polls = s.polls := rfl
@[simp] theorem State.setLcsRx_elapsed (s : State) (b : Byte) : (s.setLcsRx b).elapsed = s.elapsed := rfl
@[simp] theorem State.setLcsRx_ackBuf (s : State) (b : Byte) : (s.setLcsRx b).ackBuf = s.ackBuf := rfl
@[simp] theorem State.setLcsRx_result (s : State) (b : Byte) : (s.setLcsRx b).result = s.result := rfl
@[simp] theorem State.setLcsRx_ackRetries (s : State) (b : Byte) : (s.setLcsRx b).ackRetries = s.ackRetries := rfl
@[simp] theorem State.setLcsRx_cmd (s : State) (b : Byte) : (s.setLcsRx b).cmd = s.cmd := rfl
@[simp] theorem State.setLcsRx_rbuf (s : State) (b : Byte) : (s.setLcsRx b).rbuf = s.rbuf := rfl
@[simp] theorem State.setLcsRx_rbufSize (s : State) (b : Byte) : (s.setLcsRx b).rbufSize = s.rbufSize := rfl
@[simp] theorem State.setLcsRx_trace (s : State) (b : Byte) : (s.setLcsRx b).trace = s.trace := rfl
@[simp] theorem State.setLcsRx_op (s : State) (b : Byte) : (s.setLcsRx b).op = s.op := rfl
@[simp] theorem State.setLcsRx_port (s : State) (b : Byte) : (s.setLcsRx b).port = s.port := rfl
@[simp] theorem State.setLcsRx_agenda (s : State) (b : Byte) : (s.setLcsRx b).agenda = s.agenda := rfl
@[simp] theorem State.setLcsRx_peer (s : State) (b : Byte) : (s.setLcsRx b).peer = s.peer := rfl
@[simp] theorem State.setLcsRx_draws (s : State) (b : Byte) : (s.setLcsRx b).draws = s.draws := rfl
@[simp] theorem State.setLcsRx_upcoming (s : State) (b : Byte) (j : Nat) : (s.setLcsRx b).upcoming j = s.upcoming j := rfl
@[simp] theorem State.setLcsRx_answer (s : State) (b : Byte) : (s.setLcsRx b).answer = s.answer := rfl
@[simp] theorem State.setLcsRx_readCmd (s : State) (b : Byte) (j : Nat) : (s.setLcsRx b).readCmd j = s.readCmd j := rfl
@[simp] theorem State.setLcsRx_answers (s : State) (b : Byte) (i n : Nat) : (s.setLcsRx b).answers i n = s.answers i n := rfl

@[simp] theorem State.setTfiRx_pendingOp (s : State) (b : Byte) : (s.setTfiRx b).pendingOp = s.pendingOp := rfl
@[simp] theorem State.setTfiRx_phase (s : State) (b : Byte) : (s.setTfiRx b).phase = s.phase := rfl
@[simp] theorem State.setTfiRx_sel (s : State) (b : Byte) : (s.setTfiRx b).sel = s.sel := rfl
@[simp] theorem State.setTfiRx_acc (s : State) (b : Byte) : (s.setTfiRx b).acc = s.acc := rfl
@[simp] theorem State.setTfiRx_len (s : State) (b : Byte) : (s.setTfiRx b).len = s.len := rfl
@[simp] theorem State.setTfiRx_lcsRx (s : State) (b : Byte) : (s.setTfiRx b).lcsRx = s.lcsRx := rfl
@[simp] theorem State.setTfiRx_tfiRx (s : State) (b : Byte) : (s.setTfiRx b).tfiRx = some b := rfl
@[simp] theorem State.setTfiRx_cmdRx (s : State) (b : Byte) : (s.setTfiRx b).cmdRx = s.cmdRx := rfl
@[simp] theorem State.setTfiRx_eff (s : State) (b : Byte) : (s.setTfiRx b).eff = s.eff := rfl
@[simp] theorem State.setTfiRx_polls (s : State) (b : Byte) : (s.setTfiRx b).polls = s.polls := rfl
@[simp] theorem State.setTfiRx_elapsed (s : State) (b : Byte) : (s.setTfiRx b).elapsed = s.elapsed := rfl
@[simp] theorem State.setTfiRx_ackBuf (s : State) (b : Byte) : (s.setTfiRx b).ackBuf = s.ackBuf := rfl
@[simp] theorem State.setTfiRx_result (s : State) (b : Byte) : (s.setTfiRx b).result = s.result := rfl
@[simp] theorem State.setTfiRx_ackRetries (s : State) (b : Byte) : (s.setTfiRx b).ackRetries = s.ackRetries := rfl
@[simp] theorem State.setTfiRx_cmd (s : State) (b : Byte) : (s.setTfiRx b).cmd = s.cmd := rfl
@[simp] theorem State.setTfiRx_rbuf (s : State) (b : Byte) : (s.setTfiRx b).rbuf = s.rbuf := rfl
@[simp] theorem State.setTfiRx_rbufSize (s : State) (b : Byte) : (s.setTfiRx b).rbufSize = s.rbufSize := rfl
@[simp] theorem State.setTfiRx_trace (s : State) (b : Byte) : (s.setTfiRx b).trace = s.trace := rfl
@[simp] theorem State.setTfiRx_op (s : State) (b : Byte) : (s.setTfiRx b).op = s.op := rfl
@[simp] theorem State.setTfiRx_port (s : State) (b : Byte) : (s.setTfiRx b).port = s.port := rfl
@[simp] theorem State.setTfiRx_agenda (s : State) (b : Byte) : (s.setTfiRx b).agenda = s.agenda := rfl
@[simp] theorem State.setTfiRx_peer (s : State) (b : Byte) : (s.setTfiRx b).peer = s.peer := rfl
@[simp] theorem State.setTfiRx_draws (s : State) (b : Byte) : (s.setTfiRx b).draws = s.draws := rfl
@[simp] theorem State.setTfiRx_upcoming (s : State) (b : Byte) (j : Nat) : (s.setTfiRx b).upcoming j = s.upcoming j := rfl
@[simp] theorem State.setTfiRx_answer (s : State) (b : Byte) : (s.setTfiRx b).answer = s.answer := rfl
@[simp] theorem State.setTfiRx_readCmd (s : State) (b : Byte) (j : Nat) : (s.setTfiRx b).readCmd j = s.readCmd j := rfl
@[simp] theorem State.setTfiRx_answers (s : State) (b : Byte) (i n : Nat) : (s.setTfiRx b).answers i n = s.answers i n := rfl

@[simp] theorem State.setCmdRx_pendingOp (s : State) (b : Byte) : (s.setCmdRx b).pendingOp = s.pendingOp := rfl
@[simp] theorem State.setCmdRx_phase (s : State) (b : Byte) : (s.setCmdRx b).phase = s.phase := rfl
@[simp] theorem State.setCmdRx_sel (s : State) (b : Byte) : (s.setCmdRx b).sel = s.sel := rfl
@[simp] theorem State.setCmdRx_acc (s : State) (b : Byte) : (s.setCmdRx b).acc = s.acc := rfl
@[simp] theorem State.setCmdRx_len (s : State) (b : Byte) : (s.setCmdRx b).len = s.len := rfl
@[simp] theorem State.setCmdRx_lcsRx (s : State) (b : Byte) : (s.setCmdRx b).lcsRx = s.lcsRx := rfl
@[simp] theorem State.setCmdRx_tfiRx (s : State) (b : Byte) : (s.setCmdRx b).tfiRx = s.tfiRx := rfl
@[simp] theorem State.setCmdRx_cmdRx (s : State) (b : Byte) : (s.setCmdRx b).cmdRx = some b := rfl
@[simp] theorem State.setCmdRx_eff (s : State) (b : Byte) : (s.setCmdRx b).eff = s.eff := rfl
@[simp] theorem State.setCmdRx_polls (s : State) (b : Byte) : (s.setCmdRx b).polls = s.polls := rfl
@[simp] theorem State.setCmdRx_elapsed (s : State) (b : Byte) : (s.setCmdRx b).elapsed = s.elapsed := rfl
@[simp] theorem State.setCmdRx_ackBuf (s : State) (b : Byte) : (s.setCmdRx b).ackBuf = s.ackBuf := rfl
@[simp] theorem State.setCmdRx_result (s : State) (b : Byte) : (s.setCmdRx b).result = s.result := rfl
@[simp] theorem State.setCmdRx_ackRetries (s : State) (b : Byte) : (s.setCmdRx b).ackRetries = s.ackRetries := rfl
@[simp] theorem State.setCmdRx_cmd (s : State) (b : Byte) : (s.setCmdRx b).cmd = s.cmd := rfl
@[simp] theorem State.setCmdRx_rbuf (s : State) (b : Byte) : (s.setCmdRx b).rbuf = s.rbuf := rfl
@[simp] theorem State.setCmdRx_rbufSize (s : State) (b : Byte) : (s.setCmdRx b).rbufSize = s.rbufSize := rfl
@[simp] theorem State.setCmdRx_trace (s : State) (b : Byte) : (s.setCmdRx b).trace = s.trace := rfl
@[simp] theorem State.setCmdRx_op (s : State) (b : Byte) : (s.setCmdRx b).op = s.op := rfl
@[simp] theorem State.setCmdRx_port (s : State) (b : Byte) : (s.setCmdRx b).port = s.port := rfl
@[simp] theorem State.setCmdRx_agenda (s : State) (b : Byte) : (s.setCmdRx b).agenda = s.agenda := rfl
@[simp] theorem State.setCmdRx_peer (s : State) (b : Byte) : (s.setCmdRx b).peer = s.peer := rfl
@[simp] theorem State.setCmdRx_draws (s : State) (b : Byte) : (s.setCmdRx b).draws = s.draws := rfl
@[simp] theorem State.setCmdRx_upcoming (s : State) (b : Byte) (j : Nat) : (s.setCmdRx b).upcoming j = s.upcoming j := rfl
@[simp] theorem State.setCmdRx_answer (s : State) (b : Byte) : (s.setCmdRx b).answer = s.answer := rfl
@[simp] theorem State.setCmdRx_readCmd (s : State) (b : Byte) (j : Nat) : (s.setCmdRx b).readCmd j = s.readCmd j := rfl
@[simp] theorem State.setCmdRx_answers (s : State) (b : Byte) (i n : Nat) : (s.setCmdRx b).answers i n = s.answers i n := rfl

@[simp] theorem State.setEff_pendingOp (s : State) (n : Nat) : (s.setEff n).pendingOp = s.pendingOp := rfl
@[simp] theorem State.setEff_phase (s : State) (n : Nat) : (s.setEff n).phase = s.phase := rfl
@[simp] theorem State.setEff_sel (s : State) (n : Nat) : (s.setEff n).sel = s.sel := rfl
@[simp] theorem State.setEff_acc (s : State) (n : Nat) : (s.setEff n).acc = s.acc := rfl
@[simp] theorem State.setEff_len (s : State) (n : Nat) : (s.setEff n).len = s.len := rfl
@[simp] theorem State.setEff_lcsRx (s : State) (n : Nat) : (s.setEff n).lcsRx = s.lcsRx := rfl
@[simp] theorem State.setEff_tfiRx (s : State) (n : Nat) : (s.setEff n).tfiRx = s.tfiRx := rfl
@[simp] theorem State.setEff_cmdRx (s : State) (n : Nat) : (s.setEff n).cmdRx = s.cmdRx := rfl
@[simp] theorem State.setEff_eff (s : State) (n : Nat) : (s.setEff n).eff = some n := rfl
@[simp] theorem State.setEff_polls (s : State) (n : Nat) : (s.setEff n).polls = s.polls := rfl
@[simp] theorem State.setEff_elapsed (s : State) (n : Nat) : (s.setEff n).elapsed = s.elapsed := rfl
@[simp] theorem State.setEff_ackBuf (s : State) (n : Nat) : (s.setEff n).ackBuf = s.ackBuf := rfl
@[simp] theorem State.setEff_result (s : State) (n : Nat) : (s.setEff n).result = s.result := rfl
@[simp] theorem State.setEff_ackRetries (s : State) (n : Nat) : (s.setEff n).ackRetries = s.ackRetries := rfl
@[simp] theorem State.setEff_cmd (s : State) (n : Nat) : (s.setEff n).cmd = s.cmd := rfl
@[simp] theorem State.setEff_rbuf (s : State) (n : Nat) : (s.setEff n).rbuf = s.rbuf := rfl
@[simp] theorem State.setEff_rbufSize (s : State) (n : Nat) : (s.setEff n).rbufSize = s.rbufSize := rfl
@[simp] theorem State.setEff_trace (s : State) (n : Nat) : (s.setEff n).trace = s.trace := rfl
@[simp] theorem State.setEff_op (s : State) (n : Nat) : (s.setEff n).op = s.op := rfl
@[simp] theorem State.setEff_port (s : State) (n : Nat) : (s.setEff n).port = s.port := rfl
@[simp] theorem State.setEff_agenda (s : State) (n : Nat) : (s.setEff n).agenda = s.agenda := rfl
@[simp] theorem State.setEff_peer (s : State) (n : Nat) : (s.setEff n).peer = s.peer := rfl
@[simp] theorem State.setEff_draws (s : State) (n : Nat) : (s.setEff n).draws = s.draws := rfl
@[simp] theorem State.setEff_upcoming (s : State) (n : Nat) (j : Nat) : (s.setEff n).upcoming j = s.upcoming j := rfl
@[simp] theorem State.setEff_answer (s : State) (n : Nat) : (s.setEff n).answer = s.answer := rfl
@[simp] theorem State.setEff_readCmd (s : State) (n : Nat) (j : Nat) : (s.setEff n).readCmd j = s.readCmd j := rfl
@[simp] theorem State.setEff_answers (s : State) (n : Nat) (j m : Nat) : (s.setEff n).answers j m = s.answers j m := rfl

@[simp] theorem State.setPolls_pendingOp (s : State) (n : Nat) : (s.setPolls n).pendingOp = s.pendingOp := rfl
@[simp] theorem State.setPolls_phase (s : State) (n : Nat) : (s.setPolls n).phase = s.phase := rfl
@[simp] theorem State.setPolls_sel (s : State) (n : Nat) : (s.setPolls n).sel = s.sel := rfl
@[simp] theorem State.setPolls_acc (s : State) (n : Nat) : (s.setPolls n).acc = s.acc := rfl
@[simp] theorem State.setPolls_len (s : State) (n : Nat) : (s.setPolls n).len = s.len := rfl
@[simp] theorem State.setPolls_lcsRx (s : State) (n : Nat) : (s.setPolls n).lcsRx = s.lcsRx := rfl
@[simp] theorem State.setPolls_tfiRx (s : State) (n : Nat) : (s.setPolls n).tfiRx = s.tfiRx := rfl
@[simp] theorem State.setPolls_cmdRx (s : State) (n : Nat) : (s.setPolls n).cmdRx = s.cmdRx := rfl
@[simp] theorem State.setPolls_eff (s : State) (n : Nat) : (s.setPolls n).eff = s.eff := rfl
@[simp] theorem State.setPolls_polls (s : State) (n : Nat) : (s.setPolls n).polls = some n := rfl
@[simp] theorem State.setPolls_elapsed (s : State) (n : Nat) : (s.setPolls n).elapsed = s.elapsed := rfl
@[simp] theorem State.setPolls_ackBuf (s : State) (n : Nat) : (s.setPolls n).ackBuf = s.ackBuf := rfl
@[simp] theorem State.setPolls_result (s : State) (n : Nat) : (s.setPolls n).result = s.result := rfl
@[simp] theorem State.setPolls_ackRetries (s : State) (n : Nat) : (s.setPolls n).ackRetries = s.ackRetries := rfl
@[simp] theorem State.setPolls_cmd (s : State) (n : Nat) : (s.setPolls n).cmd = s.cmd := rfl
@[simp] theorem State.setPolls_rbuf (s : State) (n : Nat) : (s.setPolls n).rbuf = s.rbuf := rfl
@[simp] theorem State.setPolls_rbufSize (s : State) (n : Nat) : (s.setPolls n).rbufSize = s.rbufSize := rfl
@[simp] theorem State.setPolls_trace (s : State) (n : Nat) : (s.setPolls n).trace = s.trace := rfl
@[simp] theorem State.setPolls_op (s : State) (n : Nat) : (s.setPolls n).op = s.op := rfl
@[simp] theorem State.setPolls_port (s : State) (n : Nat) : (s.setPolls n).port = s.port := rfl
@[simp] theorem State.setPolls_agenda (s : State) (n : Nat) : (s.setPolls n).agenda = s.agenda := rfl
@[simp] theorem State.setPolls_peer (s : State) (n : Nat) : (s.setPolls n).peer = s.peer := rfl
@[simp] theorem State.setPolls_draws (s : State) (n : Nat) : (s.setPolls n).draws = s.draws := rfl
@[simp] theorem State.setPolls_upcoming (s : State) (n : Nat) (j : Nat) : (s.setPolls n).upcoming j = s.upcoming j := rfl
@[simp] theorem State.setPolls_answer (s : State) (n : Nat) : (s.setPolls n).answer = s.answer := rfl
@[simp] theorem State.setPolls_readCmd (s : State) (n : Nat) (j : Nat) : (s.setPolls n).readCmd j = s.readCmd j := rfl
@[simp] theorem State.setPolls_answers (s : State) (n : Nat) (j m : Nat) : (s.setPolls n).answers j m = s.answers j m := rfl

@[simp] theorem State.setElapsed_pendingOp (s : State) (n : Nat) : (s.setElapsed n).pendingOp = s.pendingOp := rfl
@[simp] theorem State.setElapsed_phase (s : State) (n : Nat) : (s.setElapsed n).phase = s.phase := rfl
@[simp] theorem State.setElapsed_sel (s : State) (n : Nat) : (s.setElapsed n).sel = s.sel := rfl
@[simp] theorem State.setElapsed_acc (s : State) (n : Nat) : (s.setElapsed n).acc = s.acc := rfl
@[simp] theorem State.setElapsed_len (s : State) (n : Nat) : (s.setElapsed n).len = s.len := rfl
@[simp] theorem State.setElapsed_lcsRx (s : State) (n : Nat) : (s.setElapsed n).lcsRx = s.lcsRx := rfl
@[simp] theorem State.setElapsed_tfiRx (s : State) (n : Nat) : (s.setElapsed n).tfiRx = s.tfiRx := rfl
@[simp] theorem State.setElapsed_cmdRx (s : State) (n : Nat) : (s.setElapsed n).cmdRx = s.cmdRx := rfl
@[simp] theorem State.setElapsed_eff (s : State) (n : Nat) : (s.setElapsed n).eff = s.eff := rfl
@[simp] theorem State.setElapsed_polls (s : State) (n : Nat) : (s.setElapsed n).polls = s.polls := rfl
@[simp] theorem State.setElapsed_elapsed (s : State) (n : Nat) : (s.setElapsed n).elapsed = some n := rfl
@[simp] theorem State.setElapsed_ackBuf (s : State) (n : Nat) : (s.setElapsed n).ackBuf = s.ackBuf := rfl
@[simp] theorem State.setElapsed_result (s : State) (n : Nat) : (s.setElapsed n).result = s.result := rfl
@[simp] theorem State.setElapsed_ackRetries (s : State) (n : Nat) : (s.setElapsed n).ackRetries = s.ackRetries := rfl
@[simp] theorem State.setElapsed_cmd (s : State) (n : Nat) : (s.setElapsed n).cmd = s.cmd := rfl
@[simp] theorem State.setElapsed_rbuf (s : State) (n : Nat) : (s.setElapsed n).rbuf = s.rbuf := rfl
@[simp] theorem State.setElapsed_rbufSize (s : State) (n : Nat) : (s.setElapsed n).rbufSize = s.rbufSize := rfl
@[simp] theorem State.setElapsed_trace (s : State) (n : Nat) : (s.setElapsed n).trace = s.trace := rfl
@[simp] theorem State.setElapsed_op (s : State) (n : Nat) : (s.setElapsed n).op = s.op := rfl
@[simp] theorem State.setElapsed_port (s : State) (n : Nat) : (s.setElapsed n).port = s.port := rfl
@[simp] theorem State.setElapsed_agenda (s : State) (n : Nat) : (s.setElapsed n).agenda = s.agenda := rfl
@[simp] theorem State.setElapsed_peer (s : State) (n : Nat) : (s.setElapsed n).peer = s.peer := rfl
@[simp] theorem State.setElapsed_draws (s : State) (n : Nat) : (s.setElapsed n).draws = s.draws := rfl
@[simp] theorem State.setElapsed_upcoming (s : State) (n : Nat) (j : Nat) : (s.setElapsed n).upcoming j = s.upcoming j := rfl
@[simp] theorem State.setElapsed_answer (s : State) (n : Nat) : (s.setElapsed n).answer = s.answer := rfl
@[simp] theorem State.setElapsed_readCmd (s : State) (n : Nat) (j : Nat) : (s.setElapsed n).readCmd j = s.readCmd j := rfl
@[simp] theorem State.setElapsed_answers (s : State) (n : Nat) (j m : Nat) : (s.setElapsed n).answers j m = s.answers j m := rfl

@[simp] theorem State.setAckBuf_pendingOp (s : State) (i : Nat) (b : Byte) : (s.setAckBuf i b).pendingOp = s.pendingOp := rfl
@[simp] theorem State.setAckBuf_phase (s : State) (i : Nat) (b : Byte) : (s.setAckBuf i b).phase = s.phase := rfl
@[simp] theorem State.setAckBuf_sel (s : State) (i : Nat) (b : Byte) : (s.setAckBuf i b).sel = s.sel := rfl
@[simp] theorem State.setAckBuf_acc (s : State) (i : Nat) (b : Byte) : (s.setAckBuf i b).acc = s.acc := rfl
@[simp] theorem State.setAckBuf_len (s : State) (i : Nat) (b : Byte) : (s.setAckBuf i b).len = s.len := rfl
@[simp] theorem State.setAckBuf_lcsRx (s : State) (i : Nat) (b : Byte) : (s.setAckBuf i b).lcsRx = s.lcsRx := rfl
@[simp] theorem State.setAckBuf_tfiRx (s : State) (i : Nat) (b : Byte) : (s.setAckBuf i b).tfiRx = s.tfiRx := rfl
@[simp] theorem State.setAckBuf_cmdRx (s : State) (i : Nat) (b : Byte) : (s.setAckBuf i b).cmdRx = s.cmdRx := rfl
@[simp] theorem State.setAckBuf_eff (s : State) (i : Nat) (b : Byte) : (s.setAckBuf i b).eff = s.eff := rfl
@[simp] theorem State.setAckBuf_polls (s : State) (i : Nat) (b : Byte) : (s.setAckBuf i b).polls = s.polls := rfl
@[simp] theorem State.setAckBuf_elapsed (s : State) (i : Nat) (b : Byte) : (s.setAckBuf i b).elapsed = s.elapsed := rfl
@[simp] theorem State.setAckBuf_ackBuf (s : State) (i : Nat) (b : Byte) : (s.setAckBuf i b).ackBuf = s.ackBuf.put i b := rfl
@[simp] theorem State.setAckBuf_result (s : State) (i : Nat) (b : Byte) : (s.setAckBuf i b).result = s.result := rfl
@[simp] theorem State.setAckBuf_ackRetries (s : State) (i : Nat) (b : Byte) : (s.setAckBuf i b).ackRetries = s.ackRetries := rfl
@[simp] theorem State.setAckBuf_cmd (s : State) (i : Nat) (b : Byte) : (s.setAckBuf i b).cmd = s.cmd := rfl
@[simp] theorem State.setAckBuf_rbuf (s : State) (i : Nat) (b : Byte) : (s.setAckBuf i b).rbuf = s.rbuf := rfl
@[simp] theorem State.setAckBuf_rbufSize (s : State) (i : Nat) (b : Byte) : (s.setAckBuf i b).rbufSize = s.rbufSize := rfl
@[simp] theorem State.setAckBuf_trace (s : State) (i : Nat) (b : Byte) : (s.setAckBuf i b).trace = s.trace := rfl
@[simp] theorem State.setAckBuf_op (s : State) (i : Nat) (b : Byte) : (s.setAckBuf i b).op = s.op := rfl
@[simp] theorem State.setAckBuf_port (s : State) (i : Nat) (b : Byte) : (s.setAckBuf i b).port = s.port := rfl
@[simp] theorem State.setAckBuf_agenda (s : State) (i : Nat) (b : Byte) : (s.setAckBuf i b).agenda = s.agenda := rfl
@[simp] theorem State.setAckBuf_peer (s : State) (i : Nat) (b : Byte) : (s.setAckBuf i b).peer = s.peer := rfl
@[simp] theorem State.setAckBuf_draws (s : State) (i : Nat) (b : Byte) : (s.setAckBuf i b).draws = s.draws := rfl
@[simp] theorem State.setAckBuf_upcoming (s : State) (i : Nat) (b : Byte) (j : Nat) : (s.setAckBuf i b).upcoming j = s.upcoming j := rfl
@[simp] theorem State.setAckBuf_answer (s : State) (i : Nat) (b : Byte) : (s.setAckBuf i b).answer = s.answer := rfl
@[simp] theorem State.setAckBuf_readCmd (s : State) (i : Nat) (b : Byte) (j : Nat) : (s.setAckBuf i b).readCmd j = s.readCmd j := rfl
@[simp] theorem State.setAckBuf_answers (s : State) (i : Nat) (b : Byte) (j m : Nat) : (s.setAckBuf i b).answers j m = s.answers j m := rfl

@[simp] theorem State.writeRbuf_pendingOp (s : State) (i : Nat) (b : Byte) : (s.writeRbuf i b).pendingOp = s.pendingOp := rfl
@[simp] theorem State.writeRbuf_phase (s : State) (i : Nat) (b : Byte) : (s.writeRbuf i b).phase = s.phase := rfl
@[simp] theorem State.writeRbuf_sel (s : State) (i : Nat) (b : Byte) : (s.writeRbuf i b).sel = s.sel := rfl
@[simp] theorem State.writeRbuf_acc (s : State) (i : Nat) (b : Byte) : (s.writeRbuf i b).acc = s.acc := rfl
@[simp] theorem State.writeRbuf_len (s : State) (i : Nat) (b : Byte) : (s.writeRbuf i b).len = s.len := rfl
@[simp] theorem State.writeRbuf_lcsRx (s : State) (i : Nat) (b : Byte) : (s.writeRbuf i b).lcsRx = s.lcsRx := rfl
@[simp] theorem State.writeRbuf_tfiRx (s : State) (i : Nat) (b : Byte) : (s.writeRbuf i b).tfiRx = s.tfiRx := rfl
@[simp] theorem State.writeRbuf_cmdRx (s : State) (i : Nat) (b : Byte) : (s.writeRbuf i b).cmdRx = s.cmdRx := rfl
@[simp] theorem State.writeRbuf_eff (s : State) (i : Nat) (b : Byte) : (s.writeRbuf i b).eff = s.eff := rfl
@[simp] theorem State.writeRbuf_polls (s : State) (i : Nat) (b : Byte) : (s.writeRbuf i b).polls = s.polls := rfl
@[simp] theorem State.writeRbuf_elapsed (s : State) (i : Nat) (b : Byte) : (s.writeRbuf i b).elapsed = s.elapsed := rfl
@[simp] theorem State.writeRbuf_ackBuf (s : State) (i : Nat) (b : Byte) : (s.writeRbuf i b).ackBuf = s.ackBuf := rfl
@[simp] theorem State.writeRbuf_result (s : State) (i : Nat) (b : Byte) : (s.writeRbuf i b).result = s.result := rfl
@[simp] theorem State.writeRbuf_ackRetries (s : State) (i : Nat) (b : Byte) : (s.writeRbuf i b).ackRetries = s.ackRetries := rfl
@[simp] theorem State.writeRbuf_cmd (s : State) (i : Nat) (b : Byte) : (s.writeRbuf i b).cmd = s.cmd := rfl
@[simp] theorem State.writeRbuf_rbuf (s : State) (i : Nat) (b : Byte) : (s.writeRbuf i b).rbuf = Memory.write s.rbuf i b := rfl
@[simp] theorem State.writeRbuf_rbufSize (s : State) (i : Nat) (b : Byte) : (s.writeRbuf i b).rbufSize = s.rbufSize := rfl
@[simp] theorem State.writeRbuf_trace (s : State) (i : Nat) (b : Byte) : (s.writeRbuf i b).trace = s.trace := rfl
@[simp] theorem State.writeRbuf_op (s : State) (i : Nat) (b : Byte) : (s.writeRbuf i b).op = s.op := rfl
@[simp] theorem State.writeRbuf_port (s : State) (i : Nat) (b : Byte) : (s.writeRbuf i b).port = s.port := rfl
@[simp] theorem State.writeRbuf_agenda (s : State) (i : Nat) (b : Byte) : (s.writeRbuf i b).agenda = s.agenda := rfl
@[simp] theorem State.writeRbuf_peer (s : State) (i : Nat) (b : Byte) : (s.writeRbuf i b).peer = s.peer := rfl
@[simp] theorem State.writeRbuf_draws (s : State) (i : Nat) (b : Byte) : (s.writeRbuf i b).draws = s.draws := rfl
@[simp] theorem State.writeRbuf_upcoming (s : State) (i : Nat) (b : Byte) (j : Nat) : (s.writeRbuf i b).upcoming j = s.upcoming j := rfl
@[simp] theorem State.writeRbuf_answer (s : State) (i : Nat) (b : Byte) : (s.writeRbuf i b).answer = s.answer := rfl
@[simp] theorem State.writeRbuf_readCmd (s : State) (i : Nat) (b : Byte) (j : Nat) : (s.writeRbuf i b).readCmd j = s.readCmd j := rfl
@[simp] theorem State.writeRbuf_answers (s : State) (i : Nat) (b : Byte) (j m : Nat) : (s.writeRbuf i b).answers j m = s.answers j m := rfl

@[simp] theorem State.clearWorking_pendingOp (s : State) : (s.clearWorking).pendingOp = s.pendingOp := rfl
@[simp] theorem State.clearWorking_phase (s : State) : (s.clearWorking).phase = s.phase := rfl
@[simp] theorem State.clearWorking_sel (s : State) : (s.clearWorking).sel = s.sel := rfl
@[simp] theorem State.clearWorking_acc (s : State) : (s.clearWorking).acc = none := rfl
@[simp] theorem State.clearWorking_len (s : State) : (s.clearWorking).len = none := rfl
@[simp] theorem State.clearWorking_lcsRx (s : State) : (s.clearWorking).lcsRx = none := rfl
@[simp] theorem State.clearWorking_tfiRx (s : State) : (s.clearWorking).tfiRx = none := rfl
@[simp] theorem State.clearWorking_cmdRx (s : State) : (s.clearWorking).cmdRx = none := rfl
@[simp] theorem State.clearWorking_eff (s : State) : (s.clearWorking).eff = none := rfl
@[simp] theorem State.clearWorking_polls (s : State) : (s.clearWorking).polls = none := rfl
@[simp] theorem State.clearWorking_elapsed (s : State) : (s.clearWorking).elapsed = none := rfl
@[simp] theorem State.clearWorking_ackBuf (s : State) : (s.clearWorking).ackBuf = AckBuf.empty := rfl
@[simp] theorem State.clearWorking_result (s : State) : (s.clearWorking).result = none := rfl
@[simp] theorem State.clearWorking_ackRetries (s : State) : (s.clearWorking).ackRetries = s.ackRetries := rfl
@[simp] theorem State.clearWorking_cmd (s : State) : (s.clearWorking).cmd = s.cmd := rfl
@[simp] theorem State.clearWorking_rbuf (s : State) : (s.clearWorking).rbuf = s.rbuf := rfl
@[simp] theorem State.clearWorking_rbufSize (s : State) : (s.clearWorking).rbufSize = s.rbufSize := rfl
@[simp] theorem State.clearWorking_trace (s : State) : (s.clearWorking).trace = s.trace := rfl
@[simp] theorem State.clearWorking_op (s : State) : (s.clearWorking).op = s.op := rfl
@[simp] theorem State.clearWorking_port (s : State) : (s.clearWorking).port = s.port := rfl
@[simp] theorem State.clearWorking_agenda (s : State) : (s.clearWorking).agenda = s.agenda := rfl
@[simp] theorem State.clearWorking_peer (s : State) : (s.clearWorking).peer = s.peer := rfl
@[simp] theorem State.clearWorking_draws (s : State) : (s.clearWorking).draws = s.draws := rfl
@[simp] theorem State.clearWorking_upcoming (s : State) (j : Nat) : (s.clearWorking).upcoming j = s.upcoming j := rfl
@[simp] theorem State.clearWorking_answer (s : State) : (s.clearWorking).answer = s.answer := rfl
@[simp] theorem State.clearWorking_readCmd (s : State) (j : Nat) : (s.clearWorking).readCmd j = s.readCmd j := rfl
@[simp] theorem State.clearWorking_answers (s : State) (i n : Nat) : (s.clearWorking).answers i n = s.answers i n := rfl

@[simp] theorem State.start_pendingOp (s : State) (i : Instr) : (s.start i).pendingOp = s.pendingOp := rfl
@[simp] theorem State.start_phase (s : State) (i : Instr) : (s.start i).phase = s.phase := rfl
@[simp] theorem State.start_sel (s : State) (i : Instr) : (s.start i).sel = s.sel := rfl
@[simp] theorem State.start_acc (s : State) (i : Instr) : (s.start i).acc = none := rfl
@[simp] theorem State.start_len (s : State) (i : Instr) : (s.start i).len = none := rfl
@[simp] theorem State.start_lcsRx (s : State) (i : Instr) : (s.start i).lcsRx = none := rfl
@[simp] theorem State.start_tfiRx (s : State) (i : Instr) : (s.start i).tfiRx = none := rfl
@[simp] theorem State.start_cmdRx (s : State) (i : Instr) : (s.start i).cmdRx = none := rfl
@[simp] theorem State.start_eff (s : State) (i : Instr) : (s.start i).eff = none := rfl
@[simp] theorem State.start_polls (s : State) (i : Instr) : (s.start i).polls = none := rfl
@[simp] theorem State.start_elapsed (s : State) (i : Instr) : (s.start i).elapsed = none := rfl
@[simp] theorem State.start_ackBuf (s : State) (i : Instr) : (s.start i).ackBuf = AckBuf.empty := rfl
@[simp] theorem State.start_result (s : State) (i : Instr) : (s.start i).result = none := rfl
@[simp] theorem State.start_ackRetries (s : State) (i : Instr) : (s.start i).ackRetries = s.ackRetries := rfl
@[simp] theorem State.start_cmd (s : State) (i : Instr) : (s.start i).cmd = s.cmd := rfl
@[simp] theorem State.start_rbuf (s : State) (i : Instr) : (s.start i).rbuf = s.rbuf := rfl
@[simp] theorem State.start_rbufSize (s : State) (i : Instr) : (s.start i).rbufSize = s.rbufSize := rfl
@[simp] theorem State.start_trace (s : State) (i : Instr) : (s.start i).trace = s.trace := rfl
@[simp] theorem State.start_op (s : State) (i : Instr) : (s.start i).op = some i := rfl
@[simp] theorem State.start_port (s : State) (i : Instr) : (s.start i).port = s.port := rfl
@[simp] theorem State.start_agenda (s : State) (i : Instr) : (s.start i).agenda = s.agenda := rfl
@[simp] theorem State.start_peer (s : State) (i : Instr) : (s.start i).peer = s.peer := rfl
@[simp] theorem State.start_draws (s : State) (i : Instr) : (s.start i).draws = s.draws := rfl
@[simp] theorem State.start_upcoming (s : State) (i : Instr) (j : Nat) : (s.start i).upcoming j = s.upcoming j := rfl
@[simp] theorem State.start_answer (s : State) (i : Instr) : (s.start i).answer = s.answer := rfl
@[simp] theorem State.start_readCmd (s : State) (i : Instr) (j : Nat) : (s.start i).readCmd j = s.readCmd j := rfl
@[simp] theorem State.start_answers (s : State) (i : Instr) (j m : Nat) : (s.start i).answers j m = s.answers j m := rfl

@[simp] theorem State.finish_pendingOp (s : State) (r : Result) : (s.finish r).pendingOp = s.pendingOp := rfl
@[simp] theorem State.finish_phase (s : State) (r : Result) : (s.finish r).phase = .idle := rfl
@[simp] theorem State.finish_sel (s : State) (r : Result) : (s.finish r).sel = s.sel := rfl
@[simp] theorem State.finish_acc (s : State) (r : Result) : (s.finish r).acc = s.acc := rfl
@[simp] theorem State.finish_len (s : State) (r : Result) : (s.finish r).len = s.len := rfl
@[simp] theorem State.finish_lcsRx (s : State) (r : Result) : (s.finish r).lcsRx = s.lcsRx := rfl
@[simp] theorem State.finish_tfiRx (s : State) (r : Result) : (s.finish r).tfiRx = s.tfiRx := rfl
@[simp] theorem State.finish_cmdRx (s : State) (r : Result) : (s.finish r).cmdRx = s.cmdRx := rfl
@[simp] theorem State.finish_eff (s : State) (r : Result) : (s.finish r).eff = s.eff := rfl
@[simp] theorem State.finish_polls (s : State) (r : Result) : (s.finish r).polls = s.polls := rfl
@[simp] theorem State.finish_elapsed (s : State) (r : Result) : (s.finish r).elapsed = s.elapsed := rfl
@[simp] theorem State.finish_ackBuf (s : State) (r : Result) : (s.finish r).ackBuf = s.ackBuf := rfl
@[simp] theorem State.finish_result (s : State) (r : Result) : (s.finish r).result = some r := rfl
@[simp] theorem State.finish_ackRetries (s : State) (r : Result) : (s.finish r).ackRetries = s.ackRetries := rfl
@[simp] theorem State.finish_cmd (s : State) (r : Result) : (s.finish r).cmd = s.cmd := rfl
@[simp] theorem State.finish_rbuf (s : State) (r : Result) : (s.finish r).rbuf = s.rbuf := rfl
@[simp] theorem State.finish_rbufSize (s : State) (r : Result) : (s.finish r).rbufSize = s.rbufSize := rfl
@[simp] theorem State.finish_trace (s : State) (r : Result) : (s.finish r).trace = s.trace := rfl
@[simp] theorem State.finish_op (s : State) (r : Result) : (s.finish r).op = none := rfl
@[simp] theorem State.finish_port (s : State) (r : Result) : (s.finish r).port = s.port := rfl
@[simp] theorem State.finish_agenda (s : State) (r : Result) : (s.finish r).agenda = s.agenda := rfl
@[simp] theorem State.finish_peer (s : State) (r : Result) : (s.finish r).peer = s.peer := rfl
@[simp] theorem State.finish_draws (s : State) (r : Result) : (s.finish r).draws = s.draws := rfl
@[simp] theorem State.finish_upcoming (s : State) (r : Result) (j : Nat) : (s.finish r).upcoming j = s.upcoming j := rfl
@[simp] theorem State.finish_answer (s : State) (r : Result) : (s.finish r).answer = s.answer := rfl
@[simp] theorem State.finish_readCmd (s : State) (r : Result) (j : Nat) : (s.finish r).readCmd j = s.readCmd j := rfl
@[simp] theorem State.finish_answers (s : State) (r : Result) (i n : Nat) : (s.finish r).answers i n = s.answers i n := rfl

@[simp] theorem State.raise_pendingOp (s : State) (e : ProtocolError) : (s.raise e).pendingOp = s.pendingOp := rfl
@[simp] theorem State.raise_phase (s : State) (e : ProtocolError) : (s.raise e).phase = .idle := rfl
@[simp] theorem State.raise_sel (s : State) (e : ProtocolError) : (s.raise e).sel = s.sel := rfl
@[simp] theorem State.raise_acc (s : State) (e : ProtocolError) : (s.raise e).acc = s.acc := rfl
@[simp] theorem State.raise_len (s : State) (e : ProtocolError) : (s.raise e).len = s.len := rfl
@[simp] theorem State.raise_lcsRx (s : State) (e : ProtocolError) : (s.raise e).lcsRx = s.lcsRx := rfl
@[simp] theorem State.raise_tfiRx (s : State) (e : ProtocolError) : (s.raise e).tfiRx = s.tfiRx := rfl
@[simp] theorem State.raise_cmdRx (s : State) (e : ProtocolError) : (s.raise e).cmdRx = s.cmdRx := rfl
@[simp] theorem State.raise_eff (s : State) (e : ProtocolError) : (s.raise e).eff = s.eff := rfl
@[simp] theorem State.raise_polls (s : State) (e : ProtocolError) : (s.raise e).polls = s.polls := rfl
@[simp] theorem State.raise_elapsed (s : State) (e : ProtocolError) : (s.raise e).elapsed = s.elapsed := rfl
@[simp] theorem State.raise_ackBuf (s : State) (e : ProtocolError) : (s.raise e).ackBuf = s.ackBuf := rfl
@[simp] theorem State.raise_result (s : State) (e : ProtocolError) : (s.raise e).result = some (.err e) := rfl
@[simp] theorem State.raise_ackRetries (s : State) (e : ProtocolError) : (s.raise e).ackRetries = s.ackRetries := rfl
@[simp] theorem State.raise_cmd (s : State) (e : ProtocolError) : (s.raise e).cmd = s.cmd := rfl
@[simp] theorem State.raise_rbuf (s : State) (e : ProtocolError) : (s.raise e).rbuf = s.rbuf := rfl
@[simp] theorem State.raise_rbufSize (s : State) (e : ProtocolError) : (s.raise e).rbufSize = s.rbufSize := rfl
@[simp] theorem State.raise_trace (s : State) (e : ProtocolError) : (s.raise e).trace = s.trace := rfl
@[simp] theorem State.raise_op (s : State) (e : ProtocolError) : (s.raise e).op = none := rfl
@[simp] theorem State.raise_port (s : State) (e : ProtocolError) : (s.raise e).port = s.port := rfl
@[simp] theorem State.raise_agenda (s : State) (e : ProtocolError) : (s.raise e).agenda = s.agenda := rfl
@[simp] theorem State.raise_peer (s : State) (e : ProtocolError) : (s.raise e).peer = s.peer := rfl
@[simp] theorem State.raise_draws (s : State) (e : ProtocolError) : (s.raise e).draws = s.draws := rfl
@[simp] theorem State.raise_upcoming (s : State) (e : ProtocolError) (j : Nat) : (s.raise e).upcoming j = s.upcoming j := rfl
@[simp] theorem State.raise_answer (s : State) (e : ProtocolError) : (s.raise e).answer = s.answer := rfl
@[simp] theorem State.raise_readCmd (s : State) (e : ProtocolError) (j : Nat) : (s.raise e).readCmd j = s.readCmd j := rfl
@[simp] theorem State.raise_answers (s : State) (e : ProtocolError) (i n : Nat) : (s.raise e).answers i n = s.answers i n := rfl

/-- The next draw is the draw number 0 from now. -/
theorem State.answer_eq (s : State) : s.answer = s.upcoming 0 := rfl

/-- A draw the environment has fixed. -/
theorem State.upcoming_of_peer {s : State} {j : Nat} {b : Byte} (h : s.peer[j]? = some b) : s.upcoming j = b := by
  simp [State.upcoming, h]

theorem State.answers_zero (s : State) (i : Nat) : s.answers i 0 = [] := rfl

theorem State.answers_succ (s : State) (i n : Nat) :
    s.answers i (n + 1) = s.upcoming i :: s.answers (i + 1) n := by
  simp only [State.answers, List.range_succ_eq_map, List.map_cons, List.map_map, Nat.add_zero, List.cons.injEq, true_and]
  exact List.map_congr_left fun j _ => congrArg s.upcoming (by simp; omega)

@[simp] theorem State.answers_length (s : State) (i n : Nat) : (s.answers i n).length = n := by simp [State.answers]

@[simp] theorem State.busRx_answers (s : State) (i n : Nat) : s.busRx.answers i n = s.answers (i + 1) n := by
  simp only [State.answers, State.busRx_upcoming]
  exact List.map_congr_left fun j _ => congrArg s.upcoming (by omega)

end Sys2Proof.Machine
end

