-- ==== Sys2Proof/Laws/Ops.lean ====
section
/-! SUPPORT. For each shared operation, everything it does, said once: the state it leaves as a record over the state it
starts from. The proofs about instructions cite these lemmas and unfold no loop. -/

namespace Sys2Proof.Machine

/-! ### Draws -/

/-- Draws depend on `peer` and `draws` alone: after `k` draws the rest comes `k` later. -/
theorem State.upcoming_of_drop {s t : State} {k : Nat} (hp : t.peer = s.peer.drop k) (hd : t.draws = s.draws + k) (j : Nat) :
    t.upcoming j = s.upcoming (k + j) := by
  simp only [State.upcoming, hp, hd, List.getElem?_drop, Nat.add_assoc]

theorem State.answers_of_drop {s t : State} {k : Nat} (hp : t.peer = s.peer.drop k) (hd : t.draws = s.draws + k) (i n : Nat) :
    t.answers i n = s.answers (k + i) n := by
  simp only [State.answers, State.upcoming_of_drop hp hd, Nat.add_assoc]

theorem State.answers_one (s : State) (i : Nat) : s.answers i 1 = [s.upcoming i] := by
  simp [State.answers_succ, State.answers_zero]

theorem State.answers_append (s : State) (i m n : Nat) : s.answers i (m + n) = s.answers i m ++ s.answers (i + m) n := by
  induction m generalizing i with
  | zero => simp [State.answers_zero]
  | succ m ih => rw [Nat.succ_add, State.answers_succ, State.answers_succ, ih, List.cons_append, Nat.add_right_comm]; rfl

theorem State.answers_congr {s t : State} {i n : Nat} (h : ∀ j, t.upcoming j = s.upcoming j) : t.answers i n = s.answers i n := by
  simp [State.answers, h]

/-! ### Sending -/

theorem neg8_eq (b : Byte) : neg8 b = -b := by rw [neg8, BitVec.neg_eq_not_add]

/-- Step 5 of R67 as one update. -/
theorem State.sendData_eq : ∀ (k i : Nat) (acc : Byte) (s : State), s.acc = some acc →
    State.sendData k i acc s =
      (acc + byteSum ((List.range k).map fun j => s.readCmd (i + j)),
       { s with
         acc := some (acc + byteSum ((List.range k).map fun j => s.readCmd (i + j)))
         trace := s.trace ++ ((List.range k).map fun j => s.readCmd (i + j)).map .tx })
  | 0, i, acc, s, h => by simp [State.sendData, byteSum, ← h]
  | k + 1, i, acc, s, h => by
    have hr : (List.range (k + 1)).map (fun j => s.readCmd (i + j)) =
        s.readCmd i :: (List.range k).map fun j => s.readCmd (i + 1 + j) := by
      rw [List.range_succ_eq_map]
      simp only [List.map_cons, List.map_map, Nat.add_zero, List.cons.injEq, true_and]
      exact List.map_congr_left fun j _ => congrArg s.readCmd (by simp; omega)
    rw [State.sendData, State.sendData_eq k (i + 1) _ _ (State.setAcc_acc _ _), hr]
    simp [byteSum, State.setAcc, State.busTx, State.emit, State.readCmd, BitVec.add_assoc]

/-- WRITE_FRAME's bracket (R67) as one update: the envelope of R43 in one bracket, `LEN` and `ACC` written. -/
theorem State.sendFrame_eq (n : Nat) (s : State) :
    s.sendFrame n =
      { s with
        phase := .txFrame, sel := .released, len := some (lengthByte n)
        acc := some (tfiH2D + byteSum (dataBytes s n))
        trace := s.trace ++ frameBracket (envelope (dataBytes s n)) } := by
  rw [State.sendFrame, State.sendData_eq _ _ _ _ (State.setAcc_acc _ _)]
  simp [State.sendHeader, State.sendTrailer, frameBracket, envelope, envelopeWith, dataBytes, State.readCmd, State.setAcc, State.busTx,
    State.emit, State.setLen, State.hold, State.selAssert, State.selRelease, State.setPhase, neg8_eq, lengthByte, tfiH2D,
    preamble, startCode1, startCode2, postamble, dataWriteRequest, byteSum]

/-! ### Receiving -/

/-- The state after `k` draws that are received and dropped. -/
theorem State.drain_eq : ∀ (k : Nat) (s : State),
    State.drain k s =
      { s with peer := s.peer.drop k, draws := s.draws + k, trace := s.trace ++ (s.answers 0 k).map .rx }
  | 0, s => by simp [State.drain, State.answers_zero]
  | k + 1, s => by
    rw [State.drain, State.drain_eq k, State.busRx_answers]
    simp [State.busRx, State.answer, State.answers_succ, Nat.add_assoc, Nat.add_comm 1 k]

/-- Bytes written one after another from index `i` on. -/
def Memory.store : Memory → Nat → List Byte → Memory
  | m, _, [] => m
  | m, i, b :: bs => Memory.store (Memory.write m i b) (i + 1) bs

theorem Memory.wf_store : ∀ (bytes : List Byte) {m : Memory} {i : Nat}, Memory.wf m = true →
    Memory.wf (Memory.store m i bytes) = true
  | [], _, _, h => h
  | _ :: bs, _, _, h => Memory.wf_store bs (Memory.wf_write h)

/-- What a run of writes leaves at every index. -/
theorem Memory.read_store : ∀ (bytes : List Byte) {m : Memory} {i : Nat}, Memory.wf m = true → ∀ a,
    Memory.read (Memory.store m i bytes) a =
      if h : i ≤ a ∧ a - i < bytes.length then bytes[a - i]'h.2 else Memory.read m a
  | [], m, i, _, a => by simp [Memory.store]
  | b :: bs, m, i, h, a => by
    rw [Memory.store, Memory.read_store bs (Memory.wf_write h) a, Memory.read_write h]
    by_cases h1 : a = i
    · subst h1; simp
    · by_cases h2 : i + 1 ≤ a
      · have h3 : a - i = (a - (i + 1)) + 1 := by omega
        have h4 : i ≤ a := by omega
        simp only [h1, if_false, h2, h4, true_and, h3, List.length_cons, List.getElem_cons_succ, Nat.add_lt_add_iff_right]
      · have h4 : ¬ i ≤ a := by omega
        simp [h1, h2, h4]

theorem Memory.mem_store : ∀ (bytes : List Byte) {m : Memory} {i : Nat} {c : Host.Cell}, c ∈ Memory.store m i bytes →
    c ∈ m ∨ c.1 < i + bytes.length
  | [], _, _, _, h => .inl h
  | b :: bs, m, i, c, h => by
    rcases Memory.mem_store bs h with h | h
    · rcases Memory.mem_write h with h | h
      · exact .inl h
      · subst h; exact .inr (by simp)
    · exact .inr (by simp only [List.length_cons]; omega)

/-- Step 7's loop (R89) as one update. -/
theorem State.receivePayload_eq : ∀ (k i : Nat) (acc : Byte) (s : State), s.acc = some acc →
    State.receivePayload k i acc s =
      (acc + byteSum (s.answers 0 k),
       { s with
         acc := some (acc + byteSum (s.answers 0 k)), rbuf := Memory.store s.rbuf i (s.answers 0 k)
         peer := s.peer.drop k, draws := s.draws + k, trace := s.trace ++ (s.answers 0 k).map .rx })
  | 0, i, acc, s, h => by simp [State.receivePayload, State.answers_zero, byteSum, Memory.store, ← h]
  | k + 1, i, acc, s, h => by
    rw [State.receivePayload, State.receivePayload_eq k (i + 1) _ _ (State.setAcc_acc _ _)]
    simp only [State.setAcc_answers, State.writeRbuf_answers, State.busRx_answers, State.answers_succ, Nat.zero_add]
    simp [byteSum, State.setAcc, State.writeRbuf, State.busRx, State.answer, Memory.store, BitVec.add_assoc, Nat.add_assoc,
      Nat.add_comm 1 k]

/-! ### Status queries and acknowledgments -/

theorem State.statusQuery_fst (s : State) : s.statusQuery.1 = s.upcoming 0 := rfl

/-- IS_READY's bracket (R61) as one update. -/
theorem State.statusQuery_snd (s : State) :
    s.statusQuery.2 =
      { s with
        phase := .status, sel := .released, peer := s.peer.tail, draws := s.draws + 1
        trace := s.trace ++ statusBracket (s.upcoming 0) } := by
  simp [State.statusQuery, State.selRelease, State.busRx, State.busTx, State.emit, State.selAssert, State.setPhase,
    State.answer, State.upcoming, statusBracket, statusReadRequest]

/-- READ_ACK's verdict (R75): all six bytes as the constant has them. -/
theorem State.ackQuery_fst (s : State) :
    s.ackQuery.1 = decide (s.answers 0 6 = [0x00#8, 0x00#8, 0xFF#8, 0x00#8, 0xFF#8, 0x00#8]) := by
  simp [State.ackQuery, State.receiveAck, ackMatches, ackFrame, State.answers_succ, State.answers_zero, AckBuf.put,
    State.answer, beq_eq_decide]

/-- READ_ACK's bracket (R74) as one update. -/
theorem State.ackQuery_snd (s : State) :
    s.ackQuery.2 =
      { s with
        phase := .rxAck, sel := .released, peer := s.peer.drop 6, draws := s.draws + 6
        ackBuf := ⟨some (s.upcoming 0), some (s.upcoming 1), some (s.upcoming 2), some (s.upcoming 3), some (s.upcoming 4),
          some (s.upcoming 5)⟩
        trace := s.trace ++ ackBracket (s.answers 0 6) } := by
  have hp : s.peer.drop 6 = s.peer.tail.tail.tail.tail.tail.tail := by simp only [← List.drop_one, List.drop_drop]
  rw [hp]
  apply State.ext <;>
    simp [State.ackQuery, State.receiveAck, AckBuf.put, ackBracket, dataReadRequest, State.answers_succ, State.answers_zero,
      State.answer_eq]

/-! ### The draws still to come -/

@[simp] theorem State.sendFrame_upcoming (n : Nat) (s : State) (j : Nat) : (s.sendFrame n).upcoming j = s.upcoming j := by
  rw [State.sendFrame_eq]; rfl

@[simp] theorem State.sendFrame_answers (n : Nat) (s : State) (i m : Nat) : (s.sendFrame n).answers i m = s.answers i m :=
  State.answers_congr (State.sendFrame_upcoming n s)

@[simp] theorem State.statusQuery_upcoming (s : State) (j : Nat) : s.statusQuery.2.upcoming j = s.upcoming (1 + j) := by
  rw [State.statusQuery_snd]; exact State.upcoming_of_drop (by simp) rfl j

@[simp] theorem State.ackQuery_upcoming (s : State) (j : Nat) : s.ackQuery.2.upcoming j = s.upcoming (6 + j) := by
  rw [State.ackQuery_snd]; exact State.upcoming_of_drop rfl rfl j

@[simp] theorem State.drain_upcoming (k : Nat) (s : State) (j : Nat) :
    (State.drain k s).upcoming j = s.upcoming (k + j) := by
  rw [State.drain_eq]; exact State.upcoming_of_drop rfl rfl j

end Sys2Proof.Machine
end

