-- ==== Sys2Proof/Laws/Brackets.lean ====
section
/-! SUPPORT. One lemma per field for the brackets and the drain, read off their record equations, so that no later proof
rewrites with a whole record. -/

namespace Sys2Proof.Machine

@[simp] theorem State.sendFrame_pendingOp (s : State) (n : Nat) : (s.sendFrame n).pendingOp = s.pendingOp := by rw [State.sendFrame_eq]
@[simp] theorem State.sendFrame_phase (s : State) (n : Nat) : (s.sendFrame n).phase = .txFrame := by rw [State.sendFrame_eq]
@[simp] theorem State.sendFrame_sel (s : State) (n : Nat) : (s.sendFrame n).sel = .released := by rw [State.sendFrame_eq]
@[simp] theorem State.sendFrame_acc (s : State) (n : Nat) : (s.sendFrame n).acc = some (tfiH2D + byteSum (dataBytes s n)) := by rw [State.sendFrame_eq]
@[simp] theorem State.sendFrame_len (s : State) (n : Nat) : (s.sendFrame n).len = some (lengthByte n) := by rw [State.sendFrame_eq]
@[simp] theorem State.sendFrame_lcsRx (s : State) (n : Nat) : (s.sendFrame n).lcsRx = s.lcsRx := by rw [State.sendFrame_eq]
@[simp] theorem State.sendFrame_tfiRx (s : State) (n : Nat) : (s.sendFrame n).tfiRx = s.tfiRx := by rw [State.sendFrame_eq]
@[simp] theorem State.sendFrame_cmdRx (s : State) (n : Nat) : (s.sendFrame n).cmdRx = s.cmdRx := by rw [State.sendFrame_eq]
@[simp] theorem State.sendFrame_eff (s : State) (n : Nat) : (s.sendFrame n).eff = s.eff := by rw [State.sendFrame_eq]
@[simp] theorem State.sendFrame_polls (s : State) (n : Nat) : (s.sendFrame n).polls = s.polls := by rw [State.sendFrame_eq]
@[simp] theorem State.sendFrame_elapsed (s : State) (n : Nat) : (s.sendFrame n).elapsed = s.elapsed := by rw [State.sendFrame_eq]
@[simp] theorem State.sendFrame_ackBuf (s : State) (n : Nat) : (s.sendFrame n).ackBuf = s.ackBuf := by rw [State.sendFrame_eq]
@[simp] theorem State.sendFrame_result (s : State) (n : Nat) : (s.sendFrame n).result = s.result := by rw [State.sendFrame_eq]
@[simp] theorem State.sendFrame_ackRetries (s : State) (n : Nat) : (s.sendFrame n).ackRetries = s.ackRetries := by rw [State.sendFrame_eq]
@[simp] theorem State.sendFrame_cmd (s : State) (n : Nat) : (s.sendFrame n).cmd = s.cmd := by rw [State.sendFrame_eq]
@[simp] theorem State.sendFrame_rbuf (s : State) (n : Nat) : (s.sendFrame n).rbuf = s.rbuf := by rw [State.sendFrame_eq]
@[simp] theorem State.sendFrame_rbufSize (s : State) (n : Nat) : (s.sendFrame n).rbufSize = s.rbufSize := by rw [State.sendFrame_eq]
@[simp] theorem State.sendFrame_trace (s : State) (n : Nat) : (s.sendFrame n).trace = s.trace ++ frameBracket (envelope (dataBytes s n)) := by rw [State.sendFrame_eq]
@[simp] theorem State.sendFrame_op (s : State) (n : Nat) : (s.sendFrame n).op = s.op := by rw [State.sendFrame_eq]
@[simp] theorem State.sendFrame_port (s : State) (n : Nat) : (s.sendFrame n).port = s.port := by rw [State.sendFrame_eq]
@[simp] theorem State.sendFrame_agenda (s : State) (n : Nat) : (s.sendFrame n).agenda = s.agenda := by rw [State.sendFrame_eq]
@[simp] theorem State.sendFrame_peer (s : State) (n : Nat) : (s.sendFrame n).peer = s.peer := by rw [State.sendFrame_eq]
@[simp] theorem State.sendFrame_draws (s : State) (n : Nat) : (s.sendFrame n).draws = s.draws := by rw [State.sendFrame_eq]

@[simp] theorem State.statusQuery_pendingOp (s : State) : (s.statusQuery.2).pendingOp = s.pendingOp := by rw [State.statusQuery_snd]
@[simp] theorem State.statusQuery_phase (s : State) : (s.statusQuery.2).phase = .status := by rw [State.statusQuery_snd]
@[simp] theorem State.statusQuery_sel (s : State) : (s.statusQuery.2).sel = .released := by rw [State.statusQuery_snd]
@[simp] theorem State.statusQuery_acc (s : State) : (s.statusQuery.2).acc = s.acc := by rw [State.statusQuery_snd]
@[simp] theorem State.statusQuery_len (s : State) : (s.statusQuery.2).len = s.len := by rw [State.statusQuery_snd]
@[simp] theorem State.statusQuery_lcsRx (s : State) : (s.statusQuery.2).lcsRx = s.lcsRx := by rw [State.statusQuery_snd]
@[simp] theorem State.statusQuery_tfiRx (s : State) : (s.statusQuery.2).tfiRx = s.tfiRx := by rw [State.statusQuery_snd]
@[simp] theorem State.statusQuery_cmdRx (s : State) : (s.statusQuery.2).cmdRx = s.cmdRx := by rw [State.statusQuery_snd]
@[simp] theorem State.statusQuery_eff (s : State) : (s.statusQuery.2).eff = s.eff := by rw [State.statusQuery_snd]
@[simp] theorem State.statusQuery_polls (s : State) : (s.statusQuery.2).polls = s.polls := by rw [State.statusQuery_snd]
@[simp] theorem State.statusQuery_elapsed (s : State) : (s.statusQuery.2).elapsed = s.elapsed := by rw [State.statusQuery_snd]
@[simp] theorem State.statusQuery_ackBuf (s : State) : (s.statusQuery.2).ackBuf = s.ackBuf := by rw [State.statusQuery_snd]
@[simp] theorem State.statusQuery_result (s : State) : (s.statusQuery.2).result = s.result := by rw [State.statusQuery_snd]
@[simp] theorem State.statusQuery_ackRetries (s : State) : (s.statusQuery.2).ackRetries = s.ackRetries := by rw [State.statusQuery_snd]
@[simp] theorem State.statusQuery_cmd (s : State) : (s.statusQuery.2).cmd = s.cmd := by rw [State.statusQuery_snd]
@[simp] theorem State.statusQuery_rbuf (s : State) : (s.statusQuery.2).rbuf = s.rbuf := by rw [State.statusQuery_snd]
@[simp] theorem State.statusQuery_rbufSize (s : State) : (s.statusQuery.2).rbufSize = s.rbufSize := by rw [State.statusQuery_snd]
@[simp] theorem State.statusQuery_trace (s : State) : (s.statusQuery.2).trace = s.trace ++ statusBracket (s.upcoming 0) := by rw [State.statusQuery_snd]
@[simp] theorem State.statusQuery_op (s : State) : (s.statusQuery.2).op = s.op := by rw [State.statusQuery_snd]
@[simp] theorem State.statusQuery_port (s : State) : (s.statusQuery.2).port = s.port := by rw [State.statusQuery_snd]
@[simp] theorem State.statusQuery_agenda (s : State) : (s.statusQuery.2).agenda = s.agenda := by rw [State.statusQuery_snd]
@[simp] theorem State.statusQuery_peer (s : State) : (s.statusQuery.2).peer = s.peer.tail := by rw [State.statusQuery_snd]
@[simp] theorem State.statusQuery_draws (s : State) : (s.statusQuery.2).draws = s.draws + 1 := by rw [State.statusQuery_snd]

@[simp] theorem State.ackQuery_pendingOp (s : State) : (s.ackQuery.2).pendingOp = s.pendingOp := by rw [State.ackQuery_snd]
@[simp] theorem State.ackQuery_phase (s : State) : (s.ackQuery.2).phase = .rxAck := by rw [State.ackQuery_snd]
@[simp] theorem State.ackQuery_sel (s : State) : (s.ackQuery.2).sel = .released := by rw [State.ackQuery_snd]
@[simp] theorem State.ackQuery_acc (s : State) : (s.ackQuery.2).acc = s.acc := by rw [State.ackQuery_snd]
@[simp] theorem State.ackQuery_len (s : State) : (s.ackQuery.2).len = s.len := by rw [State.ackQuery_snd]
@[simp] theorem State.ackQuery_lcsRx (s : State) : (s.ackQuery.2).lcsRx = s.lcsRx := by rw [State.ackQuery_snd]
@[simp] theorem State.ackQuery_tfiRx (s : State) : (s.ackQuery.2).tfiRx = s.tfiRx := by rw [State.ackQuery_snd]
@[simp] theorem State.ackQuery_cmdRx (s : State) : (s.ackQuery.2).cmdRx = s.cmdRx := by rw [State.ackQuery_snd]
@[simp] theorem State.ackQuery_eff (s : State) : (s.ackQuery.2).eff = s.eff := by rw [State.ackQuery_snd]
@[simp] theorem State.ackQuery_polls (s : State) : (s.ackQuery.2).polls = s.polls := by rw [State.ackQuery_snd]
@[simp] theorem State.ackQuery_elapsed (s : State) : (s.ackQuery.2).elapsed = s.elapsed := by rw [State.ackQuery_snd]
@[simp] theorem State.ackQuery_ackBuf (s : State) : (s.ackQuery.2).ackBuf = ⟨some (s.upcoming 0), some (s.upcoming 1), some (s.upcoming 2), some (s.upcoming 3), some (s.upcoming 4),
      some (s.upcoming 5)⟩ := by rw [State.ackQuery_snd]
@[simp] theorem State.ackQuery_result (s : State) : (s.ackQuery.2).result = s.result := by rw [State.ackQuery_snd]
@[simp] theorem State.ackQuery_ackRetries (s : State) : (s.ackQuery.2).ackRetries = s.ackRetries := by rw [State.ackQuery_snd]
@[simp] theorem State.ackQuery_cmd (s : State) : (s.ackQuery.2).cmd = s.cmd := by rw [State.ackQuery_snd]
@[simp] theorem State.ackQuery_rbuf (s : State) : (s.ackQuery.2).rbuf = s.rbuf := by rw [State.ackQuery_snd]
@[simp] theorem State.ackQuery_rbufSize (s : State) : (s.ackQuery.2).rbufSize = s.rbufSize := by rw [State.ackQuery_snd]
@[simp] theorem State.ackQuery_trace (s : State) : (s.ackQuery.2).trace = s.trace ++ ackBracket (s.answers 0 6) := by rw [State.ackQuery_snd]
@[simp] theorem State.ackQuery_op (s : State) : (s.ackQuery.2).op = s.op := by rw [State.ackQuery_snd]
@[simp] theorem State.ackQuery_port (s : State) : (s.ackQuery.2).port = s.port := by rw [State.ackQuery_snd]
@[simp] theorem State.ackQuery_agenda (s : State) : (s.ackQuery.2).agenda = s.agenda := by rw [State.ackQuery_snd]
@[simp] theorem State.ackQuery_peer (s : State) : (s.ackQuery.2).peer = s.peer.drop 6 := by rw [State.ackQuery_snd]
@[simp] theorem State.ackQuery_draws (s : State) : (s.ackQuery.2).draws = s.draws + 6 := by rw [State.ackQuery_snd]

@[simp] theorem State.drain_pendingOp (s : State) (k : Nat) : (State.drain k s).pendingOp = s.pendingOp := by rw [State.drain_eq]
@[simp] theorem State.drain_phase (s : State) (k : Nat) : (State.drain k s).phase = s.phase := by rw [State.drain_eq]
@[simp] theorem State.drain_sel (s : State) (k : Nat) : (State.drain k s).sel = s.sel := by rw [State.drain_eq]
@[simp] theorem State.drain_acc (s : State) (k : Nat) : (State.drain k s).acc = s.acc := by rw [State.drain_eq]
@[simp] theorem State.drain_len (s : State) (k : Nat) : (State.drain k s).len = s.len := by rw [State.drain_eq]
@[simp] theorem State.drain_lcsRx (s : State) (k : Nat) : (State.drain k s).lcsRx = s.lcsRx := by rw [State.drain_eq]
@[simp] theorem State.drain_tfiRx (s : State) (k : Nat) : (State.drain k s).tfiRx = s.tfiRx := by rw [State.drain_eq]
@[simp] theorem State.drain_cmdRx (s : State) (k : Nat) : (State.drain k s).cmdRx = s.cmdRx := by rw [State.drain_eq]
@[simp] theorem State.drain_eff (s : State) (k : Nat) : (State.drain k s).eff = s.eff := by rw [State.drain_eq]
@[simp] theorem State.drain_polls (s : State) (k : Nat) : (State.drain k s).polls = s.polls := by rw [State.drain_eq]
@[simp] theorem State.drain_elapsed (s : State) (k : Nat) : (State.drain k s).elapsed = s.elapsed := by rw [State.drain_eq]
@[simp] theorem State.drain_ackBuf (s : State) (k : Nat) : (State.drain k s).ackBuf = s.ackBuf := by rw [State.drain_eq]
@[simp] theorem State.drain_result (s : State) (k : Nat) : (State.drain k s).result = s.result := by rw [State.drain_eq]
@[simp] theorem State.drain_ackRetries (s : State) (k : Nat) : (State.drain k s).ackRetries = s.ackRetries := by rw [State.drain_eq]
@[simp] theorem State.drain_cmd (s : State) (k : Nat) : (State.drain k s).cmd = s.cmd := by rw [State.drain_eq]
@[simp] theorem State.drain_rbuf (s : State) (k : Nat) : (State.drain k s).rbuf = s.rbuf := by rw [State.drain_eq]
@[simp] theorem State.drain_rbufSize (s : State) (k : Nat) : (State.drain k s).rbufSize = s.rbufSize := by rw [State.drain_eq]
@[simp] theorem State.drain_trace (s : State) (k : Nat) : (State.drain k s).trace = s.trace ++ (s.answers 0 k).map .rx := by rw [State.drain_eq]
@[simp] theorem State.drain_op (s : State) (k : Nat) : (State.drain k s).op = s.op := by rw [State.drain_eq]
@[simp] theorem State.drain_port (s : State) (k : Nat) : (State.drain k s).port = s.port := by rw [State.drain_eq]
@[simp] theorem State.drain_agenda (s : State) (k : Nat) : (State.drain k s).agenda = s.agenda := by rw [State.drain_eq]
@[simp] theorem State.drain_peer (s : State) (k : Nat) : (State.drain k s).peer = s.peer.drop k := by rw [State.drain_eq]
@[simp] theorem State.drain_draws (s : State) (k : Nat) : (State.drain k s).draws = s.draws + k := by rw [State.drain_eq]

end Sys2Proof.Machine
end

