-- ==== Sys2Proof/Laws/Poll.lean ====
section
/-! SUPPORT. What the two poll loops do (40_ready_poller.md R63, R64), said once: by the first ready answer, or by there
being none. -/

namespace Sys2Proof.Machine

/-- `s` after `k` not-ready rounds of a poll loop, but for the loop's counter. -/
def State.afterRounds (k : Nat) (s : State) : State :=
  { s with
    phase := .status, sel := .released, peer := s.peer.drop k, draws := s.draws + k
    trace := s.trace ++ notReadyRounds (s.answers 0 k) }

/-- `s` after `k` not-ready rounds and the query that found the device ready. -/
def State.afterReady (k : Nat) (s : State) : State :=
  { s with
    phase := .status, sel := .released, peer := s.peer.drop (k + 1), draws := s.draws + (k + 1)
    trace := s.trace ++ notReadyRounds (s.answers 0 k) ++ statusBracket (s.upcoming k) }

@[simp] theorem State.afterRounds_pendingOp (s : State) (k : Nat) : (s.afterRounds k).pendingOp = s.pendingOp := rfl
@[simp] theorem State.afterRounds_phase (s : State) (k : Nat) : (s.afterRounds k).phase = .status := rfl
@[simp] theorem State.afterRounds_sel (s : State) (k : Nat) : (s.afterRounds k).sel = .released := rfl
@[simp] theorem State.afterRounds_acc (s : State) (k : Nat) : (s.afterRounds k).acc = s.acc := rfl
@[simp] theorem State.afterRounds_len (s : State) (k : Nat) : (s.afterRounds k).len = s.len := rfl
@[simp] theorem State.afterRounds_lcsRx (s : State) (k : Nat) : (s.afterRounds k).lcsRx = s.lcsRx := rfl
@[simp] theorem State.afterRounds_tfiRx (s : State) (k : Nat) : (s.afterRounds k).tfiRx = s.tfiRx := rfl
@[simp] theorem State.afterRounds_cmdRx (s : State) (k : Nat) : (s.afterRounds k).cmdRx = s.cmdRx := rfl
@[simp] theorem State.afterRounds_eff (s : State) (k : Nat) : (s.afterRounds k).eff = s.eff := rfl
@[simp] theorem State.afterRounds_polls (s : State) (k : Nat) : (s.afterRounds k).polls = s.polls := rfl
@[simp] theorem State.afterRounds_elapsed (s : State) (k : Nat) : (s.afterRounds k).elapsed = s.elapsed := rfl
@[simp] theorem State.afterRounds_ackBuf (s : State) (k : Nat) : (s.afterRounds k).ackBuf = s.ackBuf := rfl
@[simp] theorem State.afterRounds_result (s : State) (k : Nat) : (s.afterRounds k).result = s.result := rfl
@[simp] theorem State.afterRounds_ackRetries (s : State) (k : Nat) : (s.afterRounds k).ackRetries = s.ackRetries := rfl
@[simp] theorem State.afterRounds_cmd (s : State) (k : Nat) : (s.afterRounds k).cmd = s.cmd := rfl
@[simp] theorem State.afterRounds_rbuf (s : State) (k : Nat) : (s.afterRounds k).rbuf = s.rbuf := rfl
@[simp] theorem State.afterRounds_rbufSize (s : State) (k : Nat) : (s.afterRounds k).rbufSize = s.rbufSize := rfl
@[simp] theorem State.afterRounds_trace (s : State) (k : Nat) : (s.afterRounds k).trace = s.trace ++ notReadyRounds (s.answers 0 k) := rfl
@[simp] theorem State.afterRounds_op (s : State) (k : Nat) : (s.afterRounds k).op = s.op := rfl
@[simp] theorem State.afterRounds_port (s : State) (k : Nat) : (s.afterRounds k).port = s.port := rfl
@[simp] theorem State.afterRounds_agenda (s : State) (k : Nat) : (s.afterRounds k).agenda = s.agenda := rfl
@[simp] theorem State.afterRounds_peer (s : State) (k : Nat) : (s.afterRounds k).peer = s.peer.drop k := rfl
@[simp] theorem State.afterRounds_draws (s : State) (k : Nat) : (s.afterRounds k).draws = s.draws + k := rfl

@[simp] theorem State.afterReady_pendingOp (s : State) (k : Nat) : (s.afterReady k).pendingOp = s.pendingOp := rfl
@[simp] theorem State.afterReady_phase (s : State) (k : Nat) : (s.afterReady k).phase = .status := rfl
@[simp] theorem State.afterReady_sel (s : State) (k : Nat) : (s.afterReady k).sel = .released := rfl
@[simp] theorem State.afterReady_acc (s : State) (k : Nat) : (s.afterReady k).acc = s.acc := rfl
@[simp] theorem State.afterReady_len (s : State) (k : Nat) : (s.afterReady k).len = s.len := rfl
@[simp] theorem State.afterReady_lcsRx (s : State) (k : Nat) : (s.afterReady k).lcsRx = s.lcsRx := rfl
@[simp] theorem State.afterReady_tfiRx (s : State) (k : Nat) : (s.afterReady k).tfiRx = s.tfiRx := rfl
@[simp] theorem State.afterReady_cmdRx (s : State) (k : Nat) : (s.afterReady k).cmdRx = s.cmdRx := rfl
@[simp] theorem State.afterReady_eff (s : State) (k : Nat) : (s.afterReady k).eff = s.eff := rfl
@[simp] theorem State.afterReady_polls (s : State) (k : Nat) : (s.afterReady k).polls = s.polls := rfl
@[simp] theorem State.afterReady_elapsed (s : State) (k : Nat) : (s.afterReady k).elapsed = s.elapsed := rfl
@[simp] theorem State.afterReady_ackBuf (s : State) (k : Nat) : (s.afterReady k).ackBuf = s.ackBuf := rfl
@[simp] theorem State.afterReady_result (s : State) (k : Nat) : (s.afterReady k).result = s.result := rfl
@[simp] theorem State.afterReady_ackRetries (s : State) (k : Nat) : (s.afterReady k).ackRetries = s.ackRetries := rfl
@[simp] theorem State.afterReady_cmd (s : State) (k : Nat) : (s.afterReady k).cmd = s.cmd := rfl
@[simp] theorem State.afterReady_rbuf (s : State) (k : Nat) : (s.afterReady k).rbuf = s.rbuf := rfl
@[simp] theorem State.afterReady_rbufSize (s : State) (k : Nat) : (s.afterReady k).rbufSize = s.rbufSize := rfl
@[simp] theorem State.afterReady_trace (s : State) (k : Nat) : (s.afterReady k).trace = s.trace ++ notReadyRounds (s.answers 0 k) ++ statusBracket (s.upcoming k) := rfl
@[simp] theorem State.afterReady_op (s : State) (k : Nat) : (s.afterReady k).op = s.op := rfl
@[simp] theorem State.afterReady_port (s : State) (k : Nat) : (s.afterReady k).port = s.port := rfl
@[simp] theorem State.afterReady_agenda (s : State) (k : Nat) : (s.afterReady k).agenda = s.agenda := rfl
@[simp] theorem State.afterReady_peer (s : State) (k : Nat) : (s.afterReady k).peer = s.peer.drop (k + 1) := rfl
@[simp] theorem State.afterReady_draws (s : State) (k : Nat) : (s.afterReady k).draws = s.draws + (k + 1) := rfl

@[simp] theorem State.afterRounds_upcoming (s : State) (k j : Nat) : (s.afterRounds k).upcoming j = s.upcoming (k + j) :=
  State.upcoming_of_drop rfl rfl j

@[simp] theorem State.afterReady_upcoming (s : State) (k j : Nat) :
    (s.afterReady k).upcoming j = s.upcoming (k + 1 + j) := State.upcoming_of_drop rfl rfl j

@[simp] theorem State.afterRounds_answers (s : State) (k i n : Nat) :
    (s.afterRounds k).answers i n = s.answers (k + i) n := State.answers_of_drop rfl rfl i n

@[simp] theorem State.afterReady_answers (s : State) (k i n : Nat) :
    (s.afterReady k).answers i n = s.answers (k + 1 + i) n := State.answers_of_drop rfl rfl i n

/-- A query that finds the device ready. -/
theorem State.poll_statusQuery (s : State) : (s.setPhase .poll).statusQuery.2 = s.afterReady 0 := by
  rw [State.statusQuery_snd]
  apply State.ext <;> simp [State.afterReady, State.answers_zero, notReadyRounds]

theorem State.round_eq (s : State) : (s.setPhase .poll).statusQuery.2.sleep 1 = s.afterRounds 1 := by
  rw [State.statusQuery_snd]
  apply State.ext <;> simp [State.afterRounds, State.answers_one, notReadyRounds]

theorem State.afterRounds_succ (s : State) (k : Nat) : (s.afterRounds 1).afterRounds k = s.afterRounds (k + 1) := by
  apply State.ext <;>
    simp [State.answers_succ, State.answers_zero, notReadyRounds, Nat.add_assoc, Nat.add_comm 1 k]

theorem State.afterReady_succ (s : State) (k : Nat) : (s.afterRounds 1).afterReady k = s.afterReady (k + 1) := by
  apply State.ext <;>
    simp [State.answers_succ, State.answers_zero, notReadyRounds, Nat.add_assoc, Nat.add_comm 1]

theorem NotReadyFor.head {s : State} {k : Nat} (h : NotReadyFor s 0 (k + 1)) : readyBit (s.upcoming 0) = false :=
  h 0 (by omega)

/-- One not-ready round of the retry loop. -/
theorem State.pollRetries_round {s : State} (n p : Nat) (h : readyBit (s.upcoming 0) = false) :
    State.pollRetries (n + 1) p s = State.pollRetries n (p + 1) ((s.afterRounds 1).setPolls (p + 1)) := by
  rw [State.pollRetries]
  simp only [State.statusQuery_fst, State.setPhase_upcoming, h, State.round_eq]
  rfl

theorem State.setPolls_afterReady (s : State) (k q : Nat) :
    (s.setPolls q).afterReady k = (s.afterReady k).setPolls q := rfl
theorem State.setPolls_afterRounds (s : State) (k q : Nat) :
    (s.setPolls q).afterRounds k = (s.afterRounds k).setPolls q := rfl
theorem State.setPolls_setPolls (s : State) (p q : Nat) : (s.setPolls p).setPolls q = s.setPolls q := rfl
theorem State.setPolls_self {s : State} {p : Nat} (h : s.polls = some p) : s.setPolls p = s := by
  apply State.ext <;> simp [h]
theorem State.setElapsed_afterReady (s : State) (k q : Nat) :
    (s.setElapsed q).afterReady k = (s.afterReady k).setElapsed q := rfl
theorem State.setElapsed_afterRounds (s : State) (k q : Nat) :
    (s.setElapsed q).afterRounds k = (s.afterRounds k).setElapsed q := rfl
theorem State.setElapsed_setElapsed (s : State) (p q : Nat) : (s.setElapsed p).setElapsed q = s.setElapsed q := rfl
theorem State.setElapsed_self {s : State} {p : Nat} (h : s.elapsed = some p) : s.setElapsed p = s := by
  apply State.ext <;> simp [h]

theorem NotReadyFor.round {s t : State} {k : Nat} (h : NotReadyFor s 0 (k + 1)) (ht : ∀ j, t.upcoming j = s.upcoming (1 + j)) :
    NotReadyFor t 0 k := fun j hj => by
  rw [ht, Nat.zero_add, Nat.add_comm]; simpa using h (j + 1) (by omega)

theorem ReadyAtQuery.round {s t : State} {k : Nat} (h : ReadyAtQuery s (k + 1)) (ht : ∀ j, t.upcoming j = s.upcoming (1 + j)) :
    ReadyAtQuery t k := ⟨h.1.round ht, by rw [ht, Nat.add_comm]; exact h.2⟩

/-- The retry loop finds the device ready at query `k + 1` (R63, READY). -/
theorem State.pollRetries_ready {k n p : Nat} {s : State} (h : ReadyAtQuery s k) (hk : k < n) (hp : s.polls = some p) :
    State.pollRetries n p s = (true, (s.afterReady k).setPolls (p + k)) := by
  induction k generalizing n p s with
  | zero =>
    have hr : readyBit (s.upcoming 0) = true := h.2
    obtain ⟨n, rfl⟩ : ∃ m, n = m + 1 := ⟨n - 1, by omega⟩
    rw [State.pollRetries, ← State.setPolls_afterReady, State.setPolls_self (p := p + 0) hp]
    simp [State.statusQuery_fst, hr, State.poll_statusQuery]
  | succ k ih =>
    obtain ⟨n, rfl⟩ : ∃ m, n = m + 1 := ⟨n - 1, by omega⟩
    rw [State.pollRetries_round n p h.1.head, ih (h.round (by simp)) (by omega) (State.setPolls_polls _ _),
      State.setPolls_afterReady, State.setPolls_setPolls, State.afterReady_succ, Nat.add_right_comm, Nat.add_assoc]

/-- The retry loop never finds the device ready (R63, EXHAUSTED). -/
theorem State.pollRetries_exhausted {n p : Nat} {s : State} (h : NotReadyFor s 0 (n + 1)) :
    State.pollRetries (n + 1) p s = (false, (s.afterRounds (n + 1)).setPolls (p + (n + 1))) := by
  induction n generalizing p s with
  | zero => rw [State.pollRetries_round 0 p h.head, State.pollRetries]
  | succ n ih =>
    rw [State.pollRetries_round (n + 1) p h.head, ih (h.round (by simp)),
      State.setPolls_afterRounds, State.setPolls_setPolls, State.afterRounds_succ, Nat.add_right_comm, Nat.add_assoc]

/-- One not-ready round of the budget loop that does not use up the budget. -/
theorem State.pollBudget_round {t e : Nat} {s : State} (n : Nat) (h : readyBit (s.upcoming 0) = false)
    (hb : t = 0 ∨ e < t) :
    State.pollBudget t (n + 1) e s = State.pollBudget t n (e + 1) ((s.afterRounds 1).setElapsed (e + 1)) := by
  have hc : ¬ (0 < t ∧ t < e + 1) := by omega
  rw [State.pollBudget]
  simp only [State.statusQuery_fst, State.setPhase_upcoming, h, State.round_eq, hc, if_false]
  rfl

/-- The not-ready round that uses up the budget. -/
theorem State.pollBudget_last {t e : Nat} {s : State} (n : Nat) (h : readyBit (s.upcoming 0) = false)
    (ht : 0 < t) (hb : t ≤ e) :
    State.pollBudget t (n + 1) e s = (.exhausted, (s.afterRounds 1).setElapsed (e + 1)) := by
  have hc : 0 < t ∧ t < e + 1 := by omega
  rw [State.pollBudget]
  simp only [State.statusQuery_fst, State.setPhase_upcoming, h, State.round_eq, hc]
  rfl

/-- The budget loop finds the device ready at query `k + 1` (R64, READY). -/
theorem State.pollBudget_ready {k n t e : Nat} {s : State} (h : ReadyAtQuery s k) (hk : k < n) (hb : t = 0 ∨ e + k ≤ t)
    (he : s.elapsed = some e) : State.pollBudget t n e s = (.ready, (s.afterReady k).setElapsed (e + k)) := by
  induction k generalizing n e s with
  | zero =>
    have hr : readyBit (s.upcoming 0) = true := h.2
    obtain ⟨n, rfl⟩ : ∃ m, n = m + 1 := ⟨n - 1, by omega⟩
    rw [State.pollBudget, ← State.setElapsed_afterReady, State.setElapsed_self (p := e + 0) he]
    simp [State.statusQuery_fst, hr, State.poll_statusQuery]
  | succ k ih =>
    obtain ⟨n, rfl⟩ : ∃ m, n = m + 1 := ⟨n - 1, by omega⟩
    rw [State.pollBudget_round n h.1.head (by omega), ih (h.round (by simp)) (by omega) (by omega) (State.setElapsed_elapsed _ _),
      State.setElapsed_afterReady, State.setElapsed_setElapsed, State.afterReady_succ, Nat.add_right_comm, Nat.add_assoc]

/-- The budget loop uses up its budget (R64, EXHAUSTED), `d` rounds before the last one. -/
theorem State.pollBudget_exhausted {d n t e : Nat} {s : State} (h : NotReadyFor s 0 (d + 1)) (ht : t = e + d) (h0 : 0 < t)
    (hn : d < n) : State.pollBudget t n e s = (.exhausted, (s.afterRounds (d + 1)).setElapsed (e + d + 1)) := by
  induction d generalizing n e s with
  | zero =>
    obtain ⟨n, rfl⟩ : ∃ m, n = m + 1 := ⟨n - 1, by omega⟩
    rw [State.pollBudget_last n h.head h0 (by omega), Nat.add_zero]
  | succ d ih =>
    obtain ⟨n, rfl⟩ : ∃ m, n = m + 1 := ⟨n - 1, by omega⟩
    have hd : e + (d + 1) = e + 1 + d := by omega
    rw [State.pollBudget_round n h.head (by omega), ih (h.round (by simp)) (by omega) (by omega), hd,
      State.setElapsed_afterRounds, State.setElapsed_setElapsed, State.afterRounds_succ]

/-- An unbounded wait that finds the device not ready rests in its poll loop (R64, R124). -/
theorem State.pollBudget_pending {e : Nat} {s : State} (h : readyBit (s.upcoming 0) = false) :
    State.pollBudget 0 1 e s = (.pending, ((s.afterRounds 1).setElapsed (e + 1)).setPhase .poll) := by
  rw [State.pollBudget_round 0 h (.inl rfl), State.pollBudget]

end Sys2Proof.Machine
end

