-- ==== Sys2Proof/Laws/ReadSection.lean ====
section
/-! SUPPORT. What the read section of READ_RESPONSE does (43_response_parser.md R81 steps 2 to 10), said once: which check
ends it, and the state each exit leaves. -/

namespace Sys2Proof.Machine

/-- `v` in its read section after `m` reads, but for the registers that hold bytes read. -/
def State.inRead (m : Nat) (v : State) : State :=
  { v with
    phase := .rxHeader, sel := .asserted, peer := v.peer.drop m, draws := v.draws + m
    trace := v.trace ++ openReadSection (v.answers 0 m) }

@[simp] theorem State.inRead_pendingOp (v : State) (m : Nat) : (v.inRead m).pendingOp = v.pendingOp := rfl
@[simp] theorem State.inRead_phase (v : State) (m : Nat) : (v.inRead m).phase = .rxHeader := rfl
@[simp] theorem State.inRead_sel (v : State) (m : Nat) : (v.inRead m).sel = .asserted := rfl
@[simp] theorem State.inRead_acc (v : State) (m : Nat) : (v.inRead m).acc = v.acc := rfl
@[simp] theorem State.inRead_len (v : State) (m : Nat) : (v.inRead m).len = v.len := rfl
@[simp] theorem State.inRead_lcsRx (v : State) (m : Nat) : (v.inRead m).lcsRx = v.lcsRx := rfl
@[simp] theorem State.inRead_tfiRx (v : State) (m : Nat) : (v.inRead m).tfiRx = v.tfiRx := rfl
@[simp] theorem State.inRead_cmdRx (v : State) (m : Nat) : (v.inRead m).cmdRx = v.cmdRx := rfl
@[simp] theorem State.inRead_eff (v : State) (m : Nat) : (v.inRead m).eff = v.eff := rfl
@[simp] theorem State.inRead_polls (v : State) (m : Nat) : (v.inRead m).polls = v.polls := rfl
@[simp] theorem State.inRead_elapsed (v : State) (m : Nat) : (v.inRead m).elapsed = v.elapsed := rfl
@[simp] theorem State.inRead_ackBuf (v : State) (m : Nat) : (v.inRead m).ackBuf = v.ackBuf := rfl
@[simp] theorem State.inRead_result (v : State) (m : Nat) : (v.inRead m).result = v.result := rfl
@[simp] theorem State.inRead_ackRetries (v : State) (m : Nat) : (v.inRead m).ackRetries = v.ackRetries := rfl
@[simp] theorem State.inRead_cmd (v : State) (m : Nat) : (v.inRead m).cmd = v.cmd := rfl
@[simp] theorem State.inRead_rbuf (v : State) (m : Nat) : (v.inRead m).rbuf = v.rbuf := rfl
@[simp] theorem State.inRead_rbufSize (v : State) (m : Nat) : (v.inRead m).rbufSize = v.rbufSize := rfl
@[simp] theorem State.inRead_trace (v : State) (m : Nat) : (v.inRead m).trace = v.trace ++ openReadSection (v.answers 0 m) := rfl
@[simp] theorem State.inRead_op (v : State) (m : Nat) : (v.inRead m).op = v.op := rfl
@[simp] theorem State.inRead_port (v : State) (m : Nat) : (v.inRead m).port = v.port := rfl
@[simp] theorem State.inRead_agenda (v : State) (m : Nat) : (v.inRead m).agenda = v.agenda := rfl
@[simp] theorem State.inRead_peer (v : State) (m : Nat) : (v.inRead m).peer = v.peer.drop m := rfl
@[simp] theorem State.inRead_draws (v : State) (m : Nat) : (v.inRead m).draws = v.draws + m := rfl

@[simp] theorem State.inRead_upcoming (v : State) (m j : Nat) : (v.inRead m).upcoming j = v.upcoming (m + j) :=
  State.upcoming_of_drop rfl rfl j

@[simp] theorem State.inRead_answer (v : State) (m : Nat) : (v.inRead m).answer = v.upcoming m :=
  State.upcoming_of_drop rfl rfl 0

@[simp] theorem State.inRead_answers (v : State) (m i n : Nat) : (v.inRead m).answers i n = v.answers (m + i) n :=
  State.answers_of_drop rfl rfl i n

theorem State.busRx_inRead (v : State) (m : Nat) : (v.inRead m).busRx = v.inRead (m + 1) := by
  apply State.ext <;> simp [openReadSection, State.answers_append, State.answers_one, Nat.add_assoc]

theorem State.openRead_eq (v : State) :
    (((v.setPhase .rxHeader).selAssert).hold .settle).busTx dataReadRequest = v.inRead 0 := by
  apply State.ext <;> simp [openReadSection, State.answers_zero, dataReadRequest]

theorem State.answers_snoc (s : State) (i n : Nat) : s.answers i (n + 1) = s.answers i n ++ [s.upcoming (i + n)] := by
  rw [State.answers_append, State.answers_one]

/-- After step 4: five reads, `LEN` and `LCS_RX` written. -/
def State.afterLength (v : State) : State := ((v.inRead 5).setLen (v.upcoming 3)).setLcsRx (v.upcoming 4)

/-- After the direction byte: six reads. -/
def State.afterDirection (v : State) : State :=
  (((v.inRead 6).setLen (v.upcoming 3)).setLcsRx (v.upcoming 4)).setTfiRx (v.upcoming 5)

/-- After the response code: seven reads. -/
def State.afterCode (v : State) : State :=
  ((((v.inRead 7).setLen (v.upcoming 3)).setLcsRx (v.upcoming 4)).setTfiRx (v.upcoming 5)).setCmdRx (v.upcoming 6)

/-- The checks of the read section in the order it makes them (R84 to R86, R106). -/
theorem State.readSection_eq (cap : Nat) (v : State) :
    v.readSection cap =
      if v.upcoming 0 = 0x00#8 then
        if v.upcoming 1 = 0x00#8 then
          if v.upcoming 2 = 0xFF#8 then
            if v.upcoming 3 + v.upcoming 4 = 0#8 then
              if v.upcoming 5 = 0xD5#8 then
                match v.pendingOp with
                | none => .fault (.noPendingOpcode v.afterCode)
                | some p =>
                  if v.upcoming 6 = p + 1#8 then
                    v.afterCode.checkCapacity cap (v.upcoming 3) (v.upcoming 5 + v.upcoming 6)
                  else v.afterCode.badFrame
              else v.afterDirection.badFrame
            else v.afterLength.badFrame
          else (v.inRead 3).badFrame
        else (v.inRead 2).badFrame
      else (v.inRead 1).badFrame := by
  have h5 : (((v.inRead 3).busRx.setLen (v.upcoming 3)).busRx).setLcsRx (v.upcoming 4) = v.afterLength := by
    rw [State.busRx_inRead]
    apply State.ext <;> simp [State.afterLength, openReadSection, State.answers_succ, State.answers_zero]
  have h6 : v.afterLength.busRx.setTfiRx (v.upcoming 5) = v.afterDirection := by
    apply State.ext <;> simp [State.afterLength, State.afterDirection, openReadSection, State.answers_succ, State.answers_zero]
  have h7 : v.afterDirection.busRx.setCmdRx (v.upcoming 6) = v.afterCode := by
    apply State.ext <;> simp [State.afterDirection, State.afterCode, openReadSection, State.answers_succ, State.answers_zero]
  have a4 : ((v.inRead 3).busRx.setLen (v.upcoming 3)).answer = v.upcoming 4 := by simp
  have a5 : v.afterLength.answer = v.upcoming 5 := by simp [State.afterLength]
  have a6 : v.afterDirection.answer = v.upcoming 6 := by simp [State.afterDirection]
  have p7 : v.afterCode.pendingOp = v.pendingOp := rfl
  rw [State.readSection]
  simp only [State.openRead_eq, State.expectByte, State.inRead_answer, State.busRx_inRead, preamble, startCode1, startCode2,
    State.checkLength, State.checkDirection, State.checkEcho, lengthAccepted, beq_iff_eq, tfiD2H, expectedCode, Nat.zero_add]
  rewrite [← State.busRx_inRead v 3, a4, h5, a5, h6, a6, h7, p7]
  rfl

/-- The NoSpace exit (R88) as one update. -/
theorem State.drainFrame_eq (eff : Nat) (s : State) :
    s.drainFrame eff =
      { s with
        phase := .idle, op := none, sel := .released, result := some (.err .noSpace)
        peer := s.peer.drop (eff + 2), draws := s.draws + (eff + 2)
        trace := s.trace ++ (s.answers 0 (eff + 2)).map .rx ++ [.rel] } := by
  have e : s.answers 0 (eff + 2) = s.answers 0 eff ++ [s.upcoming eff, s.upcoming (eff + 1)] := by
    simp [State.answers_snoc]
  apply State.ext <;> simp [State.drainFrame, e, State.answer_eq, Nat.add_assoc]

/-- Steps 8 to 10 (R90 to R92), from a state `r` that comes `eff` draws after `s`. -/
theorem State.checkPayload_eq {eff : Nat} {r s : State} (acc : Byte) (hp : r.peer = s.peer.drop eff)
    (hd : r.draws = s.draws + eff) :
    State.checkPayload eff (acc, r) =
      if acc + s.upcoming eff = 0#8 then
        .next
          { r with
            phase := .idle, op := none, sel := .released, result := some (.okCount eff)
            peer := s.peer.drop (eff + 2), draws := s.draws + (eff + 2)
            trace := r.trace ++ (s.answers eff 2).map .rx ++ [.rel] }
      else
        .next
          { r with
            phase := .idle, op := none, sel := .released, result := some (.err .invalidFrame)
            peer := s.peer.drop (eff + 1), draws := s.draws + (eff + 1)
            trace := r.trace ++ (s.answers eff 1).map .rx ++ [.rel] } := by
  have hu := State.upcoming_of_drop hp hd
  simp only [State.checkPayload, State.answer_eq, State.setPhase_upcoming, checksumOk, beq_iff_eq, hu, Nat.add_zero]
  by_cases h : acc + s.upcoming eff = 0#8
  · simp only [h, if_true]
    congr 1
    apply State.ext <;> simp [State.answers_succ, State.answers_zero, State.answer_eq, hu, hp, hd, Nat.add_assoc]
  · simp only [h, if_false, State.badFrame]
    congr 1
    apply State.ext <;> simp [State.answers_succ, State.answers_zero, State.answer_eq, hu, hp, hd, Nat.add_assoc]

/-- Steps 7 to 10 (R89 to R92): the payload is stored and summed; a good checksum ends Ok(EFF) after the postamble, a bad one
InvalidFrame before it. -/
theorem State.takePayload_eq (eff : Nat) (seed : Byte) (s : State) :
    s.takePayload eff seed =
      if seed + byteSum (s.answers 0 eff) + s.upcoming eff = 0#8 then
        .next
          { s with
            phase := .idle, op := none, sel := .released, result := some (.okCount eff)
            acc := some (seed + byteSum (s.answers 0 eff)), rbuf := Memory.store s.rbuf 0 (s.answers 0 eff)
            peer := s.peer.drop (eff + 2), draws := s.draws + (eff + 2)
            trace := s.trace ++ (s.answers 0 (eff + 2)).map .rx ++ [.rel] }
      else
        .next
          { s with
            phase := .idle, op := none, sel := .released, result := some (.err .invalidFrame)
            acc := some (seed + byteSum (s.answers 0 eff)), rbuf := Memory.store s.rbuf 0 (s.answers 0 eff)
            peer := s.peer.drop (eff + 1), draws := s.draws + (eff + 1)
            trace := s.trace ++ (s.answers 0 (eff + 1)).map .rx ++ [.rel] } := by
  rw [State.takePayload, State.receivePayload_eq _ _ _ _ (State.setAcc_acc _ _), State.checkPayload_eq (s := s) _ rfl rfl]
  simp [State.answers_append]

end Sys2Proof.Machine
end

