-- ==== Sys2Proof/Laws/Await.lean ====
section
/-! SUPPORT. READ_RESPONSE as a whole: every way its poll loop, its read section and the two together can leave a step, said
once. -/

namespace Sys2Proof.Machine

/-- What a read section never touches: configuration, CMD, the length of RBUF, the caller's side, the
registers of the other operations. -/
structure Kept (s t : State) : Prop where
  polls : t.polls = s.polls
  elapsed : t.elapsed = s.elapsed
  ackBuf : t.ackBuf = s.ackBuf
  ackRetries : t.ackRetries = s.ackRetries
  cmd : t.cmd = s.cmd
  rbufSize : t.rbufSize = s.rbufSize
  port : t.port = s.port
  agenda : t.agenda = s.agenda

/-- `u` is what a read section opened at `v` with capacity `cap` ends in, whichever exit it takes. -/
structure SectionEnded (cap : Nat) (v u : State) : Prop where
  kept : Kept v u
  pendingOp : u.pendingOp = v.pendingOp
  phase : u.phase = .idle
  sel : u.sel = .released
  op : u.op = none
  result : (∃ n, u.result = some (.okCount n) ∧ n ≤ 253 ∧ n ≤ cap) ∨ u.result = some (.err .invalidFrame) ∨
    u.result = some (.err .noSpace)
  events : ∃ n, n ≤ 262 ∧ u.trace = v.trace ++ openReadSection (v.answers 0 n) ++ [.rel] ∧ u.draws = v.draws + n ∧
    u.peer = v.peer.drop n
  rbuf : u.rbuf = v.rbuf ∨ ∃ m, m ≤ cap ∧ u.eff = some m ∧ u.rbuf = Memory.store v.rbuf 0 (v.answers 7 m)

/-- The InvalidFrame exits of steps 3 to 5 (R84 to R86). -/
theorem SectionEnded.of_badFrame {cap m : Nat} {v r : State} (hk : Kept v r) (hp : r.pendingOp = v.pendingOp)
    (hb : r.rbuf = v.rbuf) (hm : m ≤ 262) (ht : r.trace = v.trace ++ openReadSection (v.answers 0 m))
    (hd : r.draws = v.draws + m) (he : r.peer = v.peer.drop m) :
    SectionEnded cap v (r.selRelease.raise .invalidFrame) where
  kept := ⟨hk.polls, hk.elapsed, hk.ackBuf, hk.ackRetries, hk.cmd, hk.rbufSize, hk.port, hk.agenda⟩
  pendingOp := hp
  phase := rfl
  sel := rfl
  op := rfl
  result := .inr (.inl rfl)
  events := ⟨m, hm, by simp [ht], hd, he⟩
  rbuf := .inl hb

/-- Step 6 on (R87 to R92) ends the read section. -/
theorem State.checkCapacity_cases (cap : Nat) (seed : Byte) (v : State) :
    ∃ u, v.afterCode.checkCapacity cap (v.upcoming 3) seed = .next u ∧ SectionEnded cap v u := by
  have hb : (v.upcoming 3).toNat < 256 := (v.upcoming 3).isLt
  obtain ⟨eff, hE⟩ : ∃ e, (v.upcoming 3).toNat - 2 = e := ⟨_, rfl⟩
  simp only [State.checkCapacity, effectiveLength, hE]
  split
  · refine ⟨_, rfl, ?_⟩
    rw [State.drainFrame_eq]
    refine ⟨⟨rfl, rfl, rfl, rfl, rfl, rfl, rfl, rfl⟩, rfl, rfl, rfl, rfl, .inr (.inr rfl), ⟨7 + (eff + 2), by omega, ?_, ?_, ?_⟩, .inl rfl⟩
    · rw [State.answers_append v 0 7]; simp [openReadSection, State.afterCode]
    · simp only [State.setEff_draws, State.afterCode, State.setCmdRx_draws, State.setTfiRx_draws, State.setLcsRx_draws,
        State.setLen_draws, State.inRead_draws]; omega
    · simp [State.afterCode]
  · rw [State.takePayload_eq]
    split <;> refine ⟨_, rfl, ?_⟩
    · refine ⟨⟨rfl, rfl, rfl, rfl, rfl, rfl, rfl, rfl⟩, rfl, rfl, rfl, rfl, .inl ⟨eff, rfl, by omega, by omega⟩,
        ⟨7 + (eff + 2), by omega, ?_, ?_, ?_⟩, .inr ⟨eff, by omega, rfl, ?_⟩⟩
      · rw [State.answers_append v 0 7]; simp [openReadSection, State.afterCode]
      · simp only [State.setEff_draws, State.afterCode, State.setCmdRx_draws, State.setTfiRx_draws, State.setLcsRx_draws,
          State.setLen_draws, State.inRead_draws]; omega
      · simp [State.afterCode]
      · simp [State.afterCode]
    · refine ⟨⟨rfl, rfl, rfl, rfl, rfl, rfl, rfl, rfl⟩, rfl, rfl, rfl, rfl, .inr (.inl rfl), ⟨7 + (eff + 1), by omega, ?_, ?_, ?_⟩,
        .inr ⟨eff, by omega, rfl, ?_⟩⟩
      · rw [State.answers_append v 0 7]; simp [openReadSection, State.afterCode]
      · simp only [State.setEff_draws, State.afterCode, State.setCmdRx_draws, State.setTfiRx_draws, State.setLcsRx_draws,
          State.setLen_draws, State.inRead_draws]; omega
      · simp [State.afterCode]
      · simp [State.afterCode]

/-- A read section ends, or faults without a pending opcode (R83, R104). -/
theorem State.readSection_cases (cap : Nat) (v : State) :
    (∃ u, v.readSection cap = .next u ∧ SectionEnded cap v u) ∨
    (v.pendingOp = none ∧ v.readSection cap = .fault (.noPendingOpcode v.afterCode)) := by
  have kept : ∀ m, Kept v (v.inRead m) := fun _ => ⟨rfl, rfl, rfl, rfl, rfl, rfl, rfl, rfl⟩
  rw [State.readSection_eq]
  repeat' split
  · exact .inr ⟨‹_›, rfl⟩
  · exact .inl (State.checkCapacity_cases cap _ v)
  · exact .inl ⟨_, rfl, .of_badFrame (m := 7) ⟨rfl, rfl, rfl, rfl, rfl, rfl, rfl, rfl⟩ rfl rfl (by omega) rfl rfl rfl⟩
  · exact .inl ⟨_, rfl, .of_badFrame (m := 6) ⟨rfl, rfl, rfl, rfl, rfl, rfl, rfl, rfl⟩ rfl rfl (by omega) rfl rfl rfl⟩
  · exact .inl ⟨_, rfl, .of_badFrame (m := 5) ⟨rfl, rfl, rfl, rfl, rfl, rfl, rfl, rfl⟩ rfl rfl (by omega) rfl rfl rfl⟩
  · exact .inl ⟨_, rfl, .of_badFrame (kept 3) rfl rfl (by omega) rfl rfl rfl⟩
  · exact .inl ⟨_, rfl, .of_badFrame (kept 2) rfl rfl (by omega) rfl rfl rfl⟩
  · exact .inl ⟨_, rfl, .of_badFrame (kept 1) rfl rfl (by omega) rfl rfl rfl⟩

/-- The first query finds the device ready. -/
theorem State.pollBudget_first {t n e : Nat} {s : State} (he : s.elapsed = some e) (hr : readyBit (s.upcoming 0) = true) :
    State.pollBudget t (n + 1) e s = (.ready, (s.afterReady 0).setElapsed (e + 0)) := by
  rw [State.pollBudget, ← State.setElapsed_afterReady, State.setElapsed_self (p := e + 0) he]
  simp [State.statusQuery_fst, hr, State.poll_statusQuery]

/-- How the budget loop (R64) leaves after at most `n + 1` queries. -/
theorem State.pollBudget_cases (t : Nat) : ∀ (n e : Nat) (s : State), s.elapsed = some e →
    (∃ k, k < n + 1 ∧ State.pollBudget t (n + 1) e s = (.ready, (s.afterReady k).setElapsed (e + k))) ∨
    (∃ k, k < n + 1 ∧ 0 < t ∧
      State.pollBudget t (n + 1) e s = (.exhausted, (s.afterRounds (k + 1)).setElapsed (e + (k + 1)))) ∨
    (State.pollBudget t (n + 1) e s = (.pending, ((s.afterRounds (n + 1)).setElapsed (e + (n + 1))).setPhase .poll) ∧
      (t = 0 ∨ e + n < t)) := by
  intro n
  induction n with
  | zero =>
    intro e s he
    by_cases hr : readyBit (s.upcoming 0) = true
    · exact .inl ⟨0, by omega, State.pollBudget_first he hr⟩
    · have hr : readyBit (s.upcoming 0) = false := by simpa using hr
      by_cases hb : t = 0 ∨ e < t
      · exact .inr (.inr ⟨by rw [State.pollBudget_round 0 hr hb, State.pollBudget], by omega⟩)
      · exact .inr (.inl ⟨0, by omega, by omega, by rw [State.pollBudget_last 0 hr (by omega) (by omega)]⟩)
  | succ n ih =>
    intro e s he
    by_cases hr : readyBit (s.upcoming 0) = true
    · exact .inl ⟨0, by omega, State.pollBudget_first he hr⟩
    · have hr : readyBit (s.upcoming 0) = false := by simpa using hr
      by_cases hb : t = 0 ∨ e < t
      · rw [State.pollBudget_round (n + 1) hr hb]
        rcases ih (e + 1) ((s.afterRounds 1).setElapsed (e + 1)) rfl with ⟨k, hk, h⟩ | ⟨k, hk, ht, h⟩ | ⟨h, ht⟩ <;> rw [h]
        · exact .inl ⟨k + 1, by omega, by
            rw [State.setElapsed_afterReady, State.setElapsed_setElapsed, State.afterReady_succ, Nat.add_right_comm,
              Nat.add_assoc]⟩
        · exact .inr (.inl ⟨k + 1, by omega, ht, by
            rw [State.setElapsed_afterRounds, State.setElapsed_setElapsed, State.afterRounds_succ, Nat.add_right_comm,
              Nat.add_assoc]⟩)
        · exact .inr (.inr ⟨by
            rw [State.setElapsed_afterRounds, State.setElapsed_setElapsed, State.afterRounds_succ, Nat.add_right_comm,
              Nat.add_assoc], by omega⟩)
      · exact .inr (.inl ⟨0, by omega, by omega, by rw [State.pollBudget_last _ hr (by omega) (by omega)]⟩)

/-- Every way READ_RESPONSE leaves a step from its poll loop: it ends in the read section, faults there, times out, or,
with an unbounded budget, waits. -/
theorem State.awaitResponse_cases (cap t e : Nat) (s : State) (he : s.elapsed = some e) :
    (∃ k u, k < queriesPerStep t ∧ s.awaitResponse cap t e = .next u ∧
      SectionEnded cap ((s.afterReady k).setElapsed (e + k)) u) ∨
    (∃ k, k < queriesPerStep t ∧ s.pendingOp = none ∧
      s.awaitResponse cap t e = .fault (.noPendingOpcode ((s.afterReady k).setElapsed (e + k)).afterCode)) ∨
    (∃ k, k < queriesPerStep t ∧ 0 < t ∧
      s.awaitResponse cap t e = .next (((s.afterRounds (k + 1)).setElapsed (e + (k + 1))).raise .timeout)) ∨
    (t = 0 ∧ s.awaitResponse cap t e = .next (((s.afterRounds 1).setElapsed (e + 1)).setPhase .poll)) := by
  obtain ⟨n, hn⟩ : ∃ n, queriesPerStep t = n + 1 := by unfold queriesPerStep; split <;> exact ⟨_, rfl⟩
  rw [State.awaitResponse, hn]
  rcases State.pollBudget_cases t n e s he with ⟨k, hk, h⟩ | ⟨k, hk, ht, h⟩ | ⟨h, ht⟩ <;> rw [h] <;>
    simp only [State.afterBudget]
  · rcases State.readSection_cases cap ((s.afterReady k).setElapsed (e + k)) with ⟨u, h1, h2⟩ | ⟨h1, h2⟩
    · exact .inl ⟨k, u, hk, h1, h2⟩
    · exact .inr (.inl ⟨k, hk, h1, h2⟩)
  · exact .inr (.inr (.inl ⟨k, hk, ht, rfl⟩))
  · have h0 : t = 0 ∧ n = 0 := by unfold queriesPerStep at hn; split at hn <;> omega
    obtain ⟨rfl, rfl⟩ := h0
    exact .inr (.inr (.inr ⟨rfl, rfl⟩))

/-- READ_RESPONSE, once taken, is its poll loop from `ELAPSED = 0`. -/
theorem exec_readResponse {s : State} {cap : BitVec 8} {t : BitVec 16} (h : Accepting s) (hc : cap.toNat ≤ s.rbufSize) :
    exec (.readResponse cap t) s =
      ((s.start (.readResponse cap t)).setElapsed 0).awaitResponse cap.toNat t.toNat 0 := by
  rw [exec, execReadResponse, issue_of_accepting (i := .readResponse cap t) h rfl hc]; rfl

/-- A READ_RESPONSE that answers a next state was taken, and its poll loop answered it. -/
theorem exec_readResponse_next {s t : State} {cap : BitVec 8} {b : BitVec 16} (h : exec (.readResponse cap b) s = .next t) :
    Accepting s ∧ cap.toNat ≤ s.rbufSize ∧
      ((s.start (.readResponse cap b)).setElapsed 0).awaitResponse cap.toNat b.toNat 0 = .next t := by
  have h := issue_next (by simpa [exec, execReadResponse] using h)
  exact ⟨h.1, h.2.2.1, h.2.2.2⟩

/-- The next step of a wait. -/
theorem step_waiting {s : State} {cap : BitVec 8} {t : BitVec 16} {e : Nat} (h1 : s.phase = .poll) (h2 : s.port = none)
    (h3 : s.op = some (.readResponse cap t)) (h4 : s.elapsed = some e) :
    step s = s.awaitResponse cap.toNat t.toNat e := by
  simp only [step, advance, h1, stepBusy, h2, h3, resumeReadResponse, h4]
  rfl

end Sys2Proof.Machine
end

