-- ==== Sys2Proof/Laws/Discipline.lean ====
section
/-! SUPPORT. Every exchange the block makes, seen by the discipline of the select line (20_memory.md R28) and by the bytes it
receives (R33). -/

namespace Sys2Proof.Machine

theorem rx_receiving (l : List Byte) : (l.map Event.rx).foldl busNext .receiving = .receiving := by
  induction l with
  | nil => rfl
  | cons b l ih => exact ih

theorem tx_sending (l : List Byte) : (l.map Event.tx).foldl busNext .sending = .sending := by
  induction l with
  | nil => rfl
  | cons b l ih => exact ih

theorem rx_received (l : List Byte) : (l.map Event.rx).countP receivesByte = l.length := by
  induction l with
  | nil => rfl
  | cons b l ih => rw [List.map_cons, List.countP_cons, ih]; rfl

theorem tx_received (l : List Byte) : (l.map Event.tx).countP receivesByte = 0 := by
  induction l with
  | nil => rfl
  | cons b l ih => rw [List.map_cons, List.countP_cons, ih]; rfl

theorem statusBracket_kept (b : Byte) : (statusBracket b).foldl busNext .released = .released := by
  simp [statusBracket, busNext]

theorem statusBracket_received (b : Byte) : (statusBracket b).countP receivesByte = 1 := rfl

theorem notReadyRounds_kept (l : List Byte) : (notReadyRounds l).foldl busNext .released = .released := by
  induction l with
  | nil => rfl
  | cons b l ih =>
    simp only [notReadyRounds, List.flatMap_cons, List.foldl_append, statusBracket_kept] at ih ⊢
    exact ih

theorem notReadyRounds_received (l : List Byte) : (notReadyRounds l).countP receivesByte = l.length := by
  induction l with
  | nil => rfl
  | cons b l ih =>
    simp only [notReadyRounds, List.flatMap_cons, List.countP_append, statusBracket_received, List.length_cons] at ih ⊢
    rw [ih]; simp [receivesByte]; omega

theorem readSection_kept (l : List Byte) : (openReadSection l ++ [Event.rel]).foldl busNext .released = .released := by
  simp [openReadSection, busNext, rx_receiving]

theorem readSection_received (l : List Byte) : (openReadSection l ++ [Event.rel]).countP receivesByte = l.length := by
  rw [openReadSection, List.countP_append, List.countP_append, rx_received]; simp [receivesByte]

theorem ackBracket_kept (l : List Byte) : (ackBracket l).foldl busNext .released = .released := by
  simp [ackBracket, busNext, rx_receiving]

theorem ackBracket_received (l : List Byte) : (ackBracket l).countP receivesByte = l.length := by
  rw [ackBracket, List.countP_append, List.countP_append, rx_received]; simp [receivesByte]

theorem frameBracket_kept (data : List Byte) : (frameBracket (envelope data)).foldl busNext .released = .released := by
  simp only [frameBracket, envelope, envelopeWith, List.map_append, List.map_cons, List.map_nil, List.foldl_append,
    List.foldl_cons, List.foldl_nil, busNext, if_true, tx_sending]

theorem frameBracket_received (sent : List Byte) : (frameBracket sent).countP receivesByte = 0 := by
  rw [frameBracket, List.countP_append, List.countP_append, tx_received]; rfl

end Sys2Proof.Machine
end

