-- ==== Sys2Proof/Laws/PerInstr.lean ====
section
/-! SUPPORT. Statements about every operation as syntax, one lemma per constructor: each descriptor word matches its row of
spec/opcode_table.json. -/

namespace Sys2Proof.Laws.TableRow

/-- The `match` value of an operation's row. -/
def matchOf : Instr → Descriptor
  | .isReady => 0x00000011#32
  | .writeFrame _ => 0x00000021#32
  | .writeCommand _ => 0x00000022#32
  | .readAck => 0x00000031#32
  | .readResponse _ _ => 0x00000032#32
  | .wake => 0x00000041#32

/-- The `mask` value of an operation's row. -/
def maskOf : Instr → Descriptor
  | .isReady => 0xFFFFFFFF#32
  | .writeFrame _ => 0xFFFF00FF#32
  | .writeCommand _ => 0xFFFF00FF#32
  | .readAck => 0xFFFFFFFF#32
  | .readResponse _ _ => 0x000000FF#32
  | .wake => 0xFFFFFFFF#32

/-- The descriptor word has the row's fixed bits. -/
def Statement (i : Instr) : Prop := encode i &&& maskOf i = matchOf i

theorem isReady : Statement .isReady := by unfold Statement; decide

theorem writeFrame (n : BitVec 8) : Statement (.writeFrame n) := by
  revert n; simp only [Statement]; decide

theorem writeCommand (n : BitVec 8) : Statement (.writeCommand n) := by
  revert n; simp only [Statement]; decide

theorem readAck : Statement .readAck := by unfold Statement; decide

theorem readResponse (cap : BitVec 8) (t : BitVec 16) : Statement (.readResponse cap t) := by
  apply BitVec.eq_of_getLsbD_eq
  intro j hj
  simp only [encode, descriptorOf, maskOf, matchOf, BitVec.getLsbD_and, BitVec.getLsbD_append]
  by_cases h : j < 8
  · simp only [h, if_true]
    interval_cases j <;> rfl
  · have hm : ∀ j : Nat, j < 32 → ¬ j < 8 → BitVec.getLsbD 0x000000FF#32 j = false ∧
        BitVec.getLsbD 0x00000032#32 j = false := by decide
    simp [hm j hj h]

theorem wake : Statement .wake := by unfold Statement; decide

end Sys2Proof.Laws.TableRow
end

