-- ==== Sys2Proof/Laws/Step.lean ====
section
/-! SUPPORT. What a step can do, said once, and how runs are made of steps. -/

namespace Sys2Proof.Machine

/-- `s0` is `s` with the caller's move taken from the port or the agenda, or `s` where the caller makes none. -/
def MoveTaken (s s0 : State) : Prop := s0 = { s with port := none } ∨ ∃ ms, s.port = none ∧ s0 = { s with agenda := ms }

/-- `t` is `s0` but for an array the caller supplied, or `s0` itself. -/
def Supplied (s0 t : State) : Prop :=
  (∃ bytes, t = { s0 with cmd := Memory.ofBytes 0 bytes }) ∨
  (∃ bytes, t = { s0 with rbuf := Memory.ofBytes 0 bytes, rbufSize := bytes.length }) ∨ t = s0

/-- What a move of the caller at an idle block can lead to. -/
theorem callerMove_cases {m : CallerMove} {s t : State} (h : callerMove m s = .next t) :
    (∃ i, exec i s = .next t) ∨ Supplied s t := by
  cases m with
  | issue w =>
    simp only [callerMove, issueWord] at h
    split at h
    · exact .inl ⟨_, h⟩
    · cases h
  | supplyCmd bytes => cases h; exact .inr (.inl ⟨bytes, rfl⟩)
  | supplyRbuf bytes => cases h; exact .inr (.inr (.inl ⟨bytes, rfl⟩))
  | inspectCmd => cases h; exact .inr (.inr (.inr rfl))
  | inspectRbuf => cases h; exact .inr (.inr (.inr rfl))

/-- What a step that answers a next state did: it ran an operation, took a move of the caller's (or waited), or went on with
a READ_RESPONSE in its poll loop. -/
theorem step_next_cases {s t : State} (h : step s = .next t) :
    (s.phase = .idle ∧ ∃ s0, MoveTaken s s0 ∧ ((∃ i, exec i s0 = .next t) ∨ Supplied s0 t)) ∨
    (s.phase = .poll ∧ s.port = none ∧ ∃ cap b e, s.op = some (.readResponse cap b) ∧ s.elapsed = some e ∧
      s.awaitResponse cap.toNat b.toNat e = .next t) := by
  simp only [step, advance] at h
  split at h
  · rename_i hi
    simp only [stepIdle] at h
    split at h
    · exact .inl ⟨hi, _, .inl rfl, callerMove_cases h⟩
    · rename_i hp
      split at h
      · exact .inl ⟨hi, _, .inr ⟨_, hp, rfl⟩, callerMove_cases h⟩
      · cases h; exact .inl ⟨hi, s, .inr ⟨s.agenda, hp, rfl⟩, .inr (.inr (.inr rfl))⟩
  · simp only [stepBusy] at h
    split at h
    · cases h
    · rename_i hp
      split at h
      · rename_i cap b h1 h2
        simp only [resumeReadResponse] at h
        split at h
        · cases h
        · rename_i e he
          exact .inr ⟨h1, hp, cap, b, e, h2, he, h⟩
      · cases h

/-- A run goes on from the state its first step answers. -/
theorem run_next (M : Host.Core) (k : Nat) (s s' : M.State) (h : M.step s = .next s') : M.run (k + 1) s = M.run k s' := by
  rw [Host.Core.run, h]

/-- A run stops where its first step faults. -/
theorem run_fault (M : Host.Core) (k : Nat) (s : M.State) (f : M.Fault) (h : M.step s = .fault f) :
    M.run (k + 1) s = .fault f := by
  rw [Host.Core.run, h]

/-- The same of this block's runs. -/
theorem core_run_next {k : Nat} {s s' : State} (h : step s = .next s') : core.run (k + 1) s = core.run k s' :=
  run_next core k s s' h

theorem core_run_fault {k : Nat} {s : State} {f : Fault} (h : step s = .fault f) : core.run (k + 1) s = .fault f :=
  run_fault core k s f h

end Sys2Proof.Machine
end

