-- ==== Sys2Proof/Tests/Slice0.lean ====
section
/-! SUPPORT. Tests of the model against the words and vectors of spec/95_test_vectors.md, and a witness for the hypotheses of
every obligation. -/

namespace Sys2Proof.Tests

open Sys2Proof.Machine

/-! ### Well-formed operations (30_encoding.md R56) -/

theorem test_wellFormed_admits :
    (Instr.writeFrame 0#8).wellFormed = true ∧ (Instr.writeFrame 254#8).wellFormed = true ∧
    (Instr.writeCommand 1#8).wellFormed = true ∧ (Instr.writeCommand 254#8).wellFormed = true ∧
    (Instr.readResponse 0#8 0#16).wellFormed = true ∧ (Instr.readResponse 255#8 65535#16).wellFormed = true := by decide

theorem test_wellFormed_refuses_long_frame : (Instr.writeFrame 255#8).wellFormed = false := by decide

theorem test_wellFormed_refuses_empty_command : (Instr.writeCommand 0#8).wellFormed = false := by decide

theorem test_wellFormed_refuses_long_command : (Instr.writeCommand 255#8).wellFormed = false := by decide

/-! ### Decoding: the words of 95_test_vectors.md 2.8 and of the programs of its section 3, and bit patterns of R54 -/

theorem test_decode_isReady : decode 0b00000000000000000000000000010001#32 = .ok .isReady := by decide

theorem test_decode_writeFrame :
    decode 0x00000021#32 = .ok (.writeFrame 0#8) ∧ decode 0x0000FE21#32 = .ok (.writeFrame 254#8) ∧
    decode 0b00000000000000000000001100100001#32 = .ok (.writeFrame 3#8) := by decide

theorem test_decode_writeCommand :
    decode 0x00000122#32 = .ok (.writeCommand 1#8) ∧ decode 0x00000322#32 = .ok (.writeCommand 3#8) ∧
    decode 0b00000000000000000000010000100010#32 = .ok (.writeCommand 4#8) := by decide

theorem test_decode_readAck : decode 0b00000000000000000000000000110001#32 = .ok .readAck := by decide

theorem test_decode_readResponse :
    decode 0x03E80432#32 = .ok (.readResponse 4#8 1000#16) ∧ decode 0x00000032#32 = .ok (.readResponse 0#8 0#16) ∧
    decode 0x00641032#32 = .ok (.readResponse 16#8 100#16) := by decide

theorem test_decode_wake : decode 0b00000000000000000000000001000001#32 = .ok .wake := by decide

theorem test_decode_refuses :
    decode 0x00000000#32 = .error .badDescriptor ∧ decode 0x00000001#32 = .error .badDescriptor ∧
    decode 0x00000023#32 = .error .badDescriptor ∧ decode 0x000000FF#32 = .error .badDescriptor ∧
    decode 0x00000111#32 = .error .badDescriptor ∧ decode 0x00010021#32 = .error .badDescriptor ∧
    decode 0x0000FF21#32 = .error .badOperand ∧ decode 0x00000022#32 = .error .badOperand := by decide

/-- The boundaries of the reserved `OPSEL` ranges of R55. -/
theorem test_decode_reserved :
    decode 0x10#32 = .error .badDescriptor ∧ decode 0x12#32 = .error .badDescriptor ∧ decode 0x20#32 = .error .badDescriptor ∧
    decode 0x30#32 = .error .badDescriptor ∧ decode 0x33#32 = .error .badDescriptor ∧ decode 0x40#32 = .error .badDescriptor ∧
    decode 0x42#32 = .error .badDescriptor := by decide

theorem test_decodeTableWord_longer_number : decodeTableWord 40 0x100000011 = none := by decide

/-! ### States for the tests -/

/-- After reset, with an RBUF of 255 zero bytes supplied, and these answers of the bus peer fixed. -/
def fresh (peer : List Byte) : State := { State.reset with rbufSize := 255, peer := peer }

/-- The same with these bytes in CMD. -/
def holding (data peer : List Byte) : State := { fresh peer with cmd := Memory.ofBytes 0 data }

/-- The same with a pending opcode. -/
def commanded (op : Byte) (peer : List Byte) : State := { fresh peer with pendingOp := some op }

/-- A READ_RESPONSE with an unbounded budget and a capacity of 4 that has waited through 5 queries. -/
def waiting (op : Byte) (peer : List Byte) : State :=
  { commanded op peer with phase := .poll, op := some (.readResponse 4#8 0#16), elapsed := some 5 }

/-- The state an outcome answers. -/
def reached : Host.Outcome State Fault Refusal → Option State
  | .next s => some s
  | .fault _ => none
  | .refused _ => none

/-- What a test looks at: the result and the events. -/
def seen (o : Host.Outcome State Fault Refusal) : Option (Option Result × List Event) :=
  (reached o).map fun s => (s.result, s.trace)

/-- The answers of a device that is ready and sends this response frame. -/
def ready (frame : List Byte) : List Byte := 0x01#8 :: frame

def goodAck : List Byte := [0x00#8, 0x00#8, 0xFF#8, 0x00#8, 0xFF#8, 0x00#8]

/-- Vector G1's frame, the response `32 01 06 07` to command 02. -/
def frameG1 : List Byte :=
  [0x00#8, 0x00#8, 0xFF#8, 0x06#8, 0xFA#8, 0xD5#8, 0x03#8, 0x32#8, 0x01#8, 0x06#8, 0x07#8, 0xE8#8, 0x00#8]

/-- Vector F8's bytes: the payload checksum is wrong by one. -/
def frameF8 : List Byte :=
  [0x00#8, 0x00#8, 0xFF#8, 0x06#8, 0xFA#8, 0xD5#8, 0x4B#8, 0xAA#8, 0xBB#8, 0xCC#8, 0xDD#8, 0xD3#8]

/-- Vector EQ's frame, a payload of exactly 4 bytes. -/
def frameEQ : List Byte :=
  [0x00#8, 0x00#8, 0xFF#8, 0x06#8, 0xFA#8, 0xD5#8, 0x4B#8, 0xAA#8, 0xBB#8, 0xCC#8, 0xDD#8, 0xD2#8, 0x00#8]

/-- Vector N1's frame, a payload of 10 bytes. -/
def frameN1 : List Byte :=
  [0x00#8, 0x00#8, 0xFF#8, 0x0C#8, 0xF4#8, 0xD5#8, 0x4B#8, 0x01#8, 0x02#8, 0x03#8, 0x04#8, 0x05#8, 0x06#8, 0x07#8, 0x08#8,
    0x09#8, 0x0A#8, 0xA9#8, 0x00#8]

/-! ### One step of each operation -/

/-- 2.1, status FE. -/
theorem test_isReady_ignores_high_bits :
    seen (exec .isReady (fresh [0xFE#8])) = some (some (.okBool false), [.sel, .tx 0x02#8, .rx 0xFE#8, .rel]) := by decide

/-- 2.1, status FF. -/
theorem test_isReady_ready :
    seen (exec .isReady (fresh [0xFF#8])) = some (some (.okBool true), [.sel, .tx 0x02#8, .rx 0xFF#8, .rel]) := by decide

/-- 2.2, CMD = 4A 01 00. -/
theorem test_writeFrame_bytes :
    seen (exec (.writeFrame 3#8) (holding [0x4A#8, 0x01#8, 0x00#8] [])) =
      some (some .okUnit, [.sel, .hold .wakeup, .tx 0x01#8, .tx 0x00#8, .tx 0x00#8, .tx 0xFF#8, .tx 0x04#8, .tx 0xFC#8,
        .tx 0xD4#8, .tx 0x4A#8, .tx 0x01#8, .tx 0x00#8, .tx 0xE1#8, .tx 0x00#8, .rel]) := by decide

/-- 2.2, CMD = 2C: the accumulator wraps to 00. -/
theorem test_writeFrame_wraps :
    seen (exec (.writeFrame 1#8) (holding [0x2C#8] [])) =
      some (some .okUnit, [.sel, .hold .wakeup, .tx 0x01#8, .tx 0x00#8, .tx 0x00#8, .tx 0xFF#8, .tx 0x02#8, .tx 0xFE#8,
        .tx 0xD4#8, .tx 0x2C#8, .tx 0x00#8, .tx 0x00#8, .rel]) := by decide

/-- 2.3, the constant. -/
theorem test_readAck_good :
    seen (exec .readAck (fresh goodAck)) =
      some (some (.okBool true),
        [.sel, .tx 0x03#8, .rx 0x00#8, .rx 0x00#8, .rx 0xFF#8, .rx 0x00#8, .rx 0xFF#8, .rx 0x00#8, .rel]) := by decide

/-- 2.3, the NACK layout. -/
theorem test_readAck_nack :
    seen (exec .readAck (fresh [0x00#8, 0x00#8, 0xFF#8, 0xFF#8, 0x00#8, 0x00#8])) =
      some (some (.okBool false),
        [.sel, .tx 0x03#8, .rx 0x00#8, .rx 0x00#8, .rx 0xFF#8, .rx 0xFF#8, .rx 0x00#8, .rx 0x00#8, .rel]) := by decide

/-- The example of R76: ready at the second query, acknowledged. -/
theorem test_writeCommand_ok :
    (reached (exec (.writeCommand 3#8)
      (holding [0x4A#8, 0x01#8, 0x00#8] ([0x00#8, 0x01#8] ++ goodAck)))).map (fun s => (s.result, s.pendingOp, s.trace.drop 15)) =
      some (some .okUnit, some 0x4A#8,
        [.sel, .tx 0x02#8, .rx 0x00#8, .rel, .sleep 1, .sel, .tx 0x02#8, .rx 0x01#8, .rel,
          .sel, .tx 0x03#8, .rx 0x00#8, .rx 0x00#8, .rx 0xFF#8, .rx 0x00#8, .rx 0xFF#8, .rx 0x00#8, .rel]) := by decide

/-- 2.6, row C5: one retry, not ready. -/
theorem test_writeCommand_timeout :
    (reached (exec (.writeCommand 1#8) { holding [0x02#8] [0x00#8] with ackRetries := 1 })).map
      (fun s => (s.result, s.pendingOp, s.trace.drop 13)) =
      some (some (.err .timeout), some 0x02#8, [.sel, .tx 0x02#8, .rx 0x00#8, .rel, .sleep 1]) := by decide

/-- 2.4, row G1. -/
theorem test_readResponse_ok :
    (reached (exec (.readResponse 8#8 0#16) (commanded 0x02#8 (ready frameG1)))).map
      (fun s => (s.result, s.rbuf, s.draws)) =
      some (some (.okCount 4), [(0, 0x32#8), (1, 0x01#8), (2, 0x06#8), (3, 0x07#8)], 14) := by decide

/-- 2.4, row N1: a payload of 10 bytes against a capacity of 4 is drained, all 19 bytes. -/
theorem test_readResponse_noSpace :
    (reached (exec (.readResponse 4#8 1#16) (commanded 0x4A#8 (ready frameN1)))).map
      (fun s => (s.result, s.rbuf, s.draws, s.sel)) =
      some (some (.err .noSpace), [], 20, .released) := by decide

/-- 2.9. -/
theorem test_wake : seen (exec .wake (fresh [])) = some (some .okUnit, [.sel, .hold .wake, .rel]) := by decide

/-- 2.4, row Z1 and program P4: no command yet, the fault after 7 reads with select still asserted. -/
theorem test_step_no_pending_opcode :
    (match step ({ fresh (ready [0x00#8, 0x00#8, 0xFF#8, 0x03#8, 0xFD#8, 0xD5#8, 0x4B#8]) with
        port := some (.issue 0x00000432#32) }) with
      | .fault (.noPendingOpcode u) => some (u.draws, u.sel)
      | _ => none) = some (8, .asserted) := by decide

/-- The word of a table row runs as the first step after reset. -/
theorem test_withFetchWord_runs :
    seen (step (State.reset.withFetchWord 32 0x00000041)) = some (some .okUnit, [.sel, .hold .wake, .rel]) := by decide +kernel

/-! ### Witnesses: states and operands that meet the hypotheses of the obligations -/

theorem witness_DecodeInvertsEncode :
    ∀ i ∈ [Instr.isReady, .writeFrame 0#8, .writeFrame 254#8, .writeCommand 1#8, .writeCommand 254#8, .readAck,
      .readResponse 255#8 65535#16, .wake], i.wellFormed = true := by decide

theorem witness_DecodedWordIsItsEncoding : decode 0x03E80432#32 = .ok (.readResponse 4#8 1000#16) := by decide

/-- Each clause of both sides, at the boundaries of the operand. -/
theorem witness_BadDescriptorExactly :
    (0x00000112#32).extractLsb' 0 8 ∉ [0x11#8, 0x21#8, 0x22#8, 0x31#8, 0x32#8, 0x41#8] ∧
    (0x00000111#32).extractLsb' 8 8 ≠ 0#8 ∧ (0x00010041#32).extractLsb' 16 16 ≠ 0#16 ∧
    (0x80000022#32).extractLsb' 16 16 ≠ 0#16 := by decide

theorem witness_BadOperandExactly :
    ((0x0000FF21#32).extractLsb' 8 8 = 255#8 ∧ (0x0000FF22#32).extractLsb' 8 8 = 255#8 ∧
      (0x00000022#32).extractLsb' 8 8 = 0#8) ∧
    ((0#8 : Byte) ≠ 255#8 ∧ (254#8 : Byte) ≠ 255#8 ∧ (1#8 : Byte) ≠ 0#8) ∧ Accepting (fresh []) :=
  ⟨by decide, by decide, ⟨rfl, by decide⟩⟩

theorem witness_LinesIssueTheirOperation :
    ([] : List Byte).length ≤ 254 ∧ (List.replicate 254 0xFF#8).length ≤ 254 ∧
    1 ≤ ([0x02#8] : List Byte).length ∧ 255 ≤ 255 ∧ 65535 ≤ 65535 :=
  ⟨Nat.zero_le _, by rw [List.length_replicate], Nat.le_refl _, Nat.le_refl _, Nat.le_refl _⟩

theorem witness_StepRunsDecodedOperation :
    decode 0x00000041#32 = .ok .wake ∧
    (∃ s : State, s.phase = .idle ∧ s.port = some (.issue 0x00000041#32)) ∧
    ∃ s : State, s.phase = .idle ∧ s.port = none ∧ s.agenda = [.issue 0x00000041#32] :=
  ⟨by decide, ⟨{ fresh [] with port := some (.issue 0x00000041#32) }, rfl, rfl⟩,
    ⟨{ fresh [] with agenda := [.issue 0x00000041#32] }, rfl, rfl, rfl⟩⟩

theorem witness_StepRefusesUndecodable :
    ∃ s s' : State, s.phase = .idle ∧ s.port = some (.issue 0x00000111#32) ∧ decode 0x00000111#32 = .error .badDescriptor ∧
      s'.phase = .idle ∧ s'.port = some (.issue 0x00000022#32) ∧ decode 0x00000022#32 = .error .badOperand :=
  ⟨{ fresh [] with port := some (.issue 0x00000111#32) }, { fresh [] with port := some (.issue 0x00000022#32) },
    rfl, rfl, by decide, rfl, rfl, by decide⟩

theorem witness_BusyBlockRefusesCaller :
    ∃ s : State, s.phase ≠ .idle ∧ s.port = some .inspectRbuf :=
  ⟨{ waiting 0x4A#8 [] with port := some .inspectRbuf }, by decide, rfl⟩

theorem witness_IdleBlockWaits : State.reset.phase = .idle ∧ State.reset.port = none ∧ State.reset.agenda = [] := by decide

theorem witness_SuppliedArraysRead :
    ∃ s s' : State, s.phase = .idle ∧ s.port = some (.supplyCmd [0x00#8, 0x02#8]) ∧
      s'.phase = .idle ∧ s'.port = some (.supplyRbuf [0x00#8, 0x02#8]) :=
  ⟨{ fresh [] with port := some (.supplyCmd [0x00#8, 0x02#8]) },
    { fresh [] with port := some (.supplyRbuf [0x00#8, 0x02#8]) }, rfl, rfl, rfl, rfl⟩

theorem witness_ResetValues : ∃ t, step State.reset = .next t := ⟨_, rfl⟩

theorem accepting_fresh (peer : List Byte) : Accepting (fresh peer) := ⟨rfl, Nat.succ_ne_zero 9⟩

theorem accepting_holding (data peer : List Byte) : Accepting (holding data peer) := ⟨rfl, Nat.succ_ne_zero 9⟩

theorem accepting_commanded (op : Byte) (peer : List Byte) : Accepting (commanded op peer) := ⟨rfl, Nat.succ_ne_zero 9⟩

/-- Also for WakeResult, ReadAckResult and, with `n` = 0 and 254, WriteFrameResult. -/
theorem witness_IsReadyResult : Accepting (fresh [0x01#8]) ∧ (0#8 : Byte) ≠ 255#8 ∧ (254#8 : Byte) ≠ 255#8 :=
  ⟨accepting_fresh _, by decide, by decide⟩

theorem witness_StatusBitsSevenToOneIgnored :
    (0xFE#8).getLsbD 0 = (0x00#8).getLsbD 0 ∧ (0x01#8).getLsbD 0 = (0xFF#8).getLsbD 0 ∧
    (∃ t, exec .isReady (fresh [0xFE#8]) = .next t) ∧ ∃ t, exec .isReady (fresh [0x01#8]) = .next t :=
  ⟨by decide, by decide, ⟨_, rfl⟩, ⟨_, rfl⟩⟩

/-- Also for EnvelopeChecksumsCancel. `n` = 0 and 254, a wrapping sum, and the first and last index of the data bytes. -/
theorem witness_WriteFrameCorners :
    (∃ t, exec (.writeFrame 0#8) (fresh []) = .next t) ∧ (∃ t, exec (.writeFrame 254#8) (fresh []) = .next t) ∧
    ((∃ t, exec (.writeFrame 1#8) (holding [0x2C#8] []) = .next t) ∧
      0xD4#8 + byteSum (dataBytes (holding [0x2C#8] []) 1) = 0x00#8) ∧
    0 < (254#8 : Byte).toNat ∧ 253 < (254#8 : Byte).toNat ∧ Accepting (fresh []) :=
  ⟨⟨_, rfl⟩, ⟨_, rfl⟩, ⟨⟨_, rfl⟩, by decide⟩, by decide, by decide, accepting_fresh _⟩

theorem witness_ShortOperationsFrame :
    (∃ t, exec .isReady (fresh []) = .next t) ∧ (∃ t, exec (.writeFrame 1#8) (fresh []) = .next t) ∧
    (∃ t, exec .readAck (fresh []) = .next t) ∧ ∃ t, exec .wake (fresh []) = .next t :=
  ⟨⟨_, rfl⟩, ⟨_, rfl⟩, ⟨_, rfl⟩, ⟨_, rfl⟩⟩

/-- The constant, and a difference in the lowest bit of the last byte. -/
theorem witness_AckComparisonExact :
    (∃ t, exec .readAck (fresh goodAck) = .next t) ∧
    (∀ j : Fin 6, (fresh goodAck).upcoming j = [0x00#8, 0x00#8, 0xFF#8, 0x00#8, 0xFF#8, 0x00#8][j]) ∧
    (∃ t, exec .readAck (fresh [0x00#8, 0x00#8, 0xFF#8, 0x00#8, 0xFF#8, 0x01#8]) = .next t) ∧
    ((fresh [0x00#8, 0x00#8, 0xFF#8, 0x00#8, 0xFF#8, 0x01#8]).upcoming 5).getLsbD 0 ≠ (0x00#8).getLsbD 0 :=
  ⟨⟨_, rfl⟩, by decide, ⟨_, rfl⟩, by decide⟩

/-- `n` = 1 and 254; ready at the first and at the last query, and never. Also for WriteCommandAlwaysEnds. -/
theorem witness_WriteCommandResult :
    (1#8 : Byte) ≠ 0#8 ∧ (1#8 : Byte) ≠ 255#8 ∧ (254#8 : Byte) ≠ 0#8 ∧ (254#8 : Byte) ≠ 255#8 ∧
    Accepting (holding [0x02#8] []) ∧
    (0 < (holding [0x02#8] [0x01#8]).ackRetries ∧ ReadyAtQuery (holding [0x02#8] [0x01#8]) 0) ∧
    (9 < (holding [0x02#8] (List.replicate 9 0x00#8 ++ [0x01#8])).ackRetries ∧
      ReadyAtQuery (holding [0x02#8] (List.replicate 9 0x00#8 ++ [0x01#8])) 9) ∧
    NotReadyFor (holding [0x02#8] (List.replicate 10 0x00#8)) 0 10 := by
  refine ⟨by decide, by decide, by decide, by decide, accepting_holding _ _, ⟨by decide, ?_⟩, ⟨by decide, ?_⟩, ?_⟩ <;>
    simp only [ReadyAtQuery, NotReadyFor] <;> decide

/-- Also for WriteCommandSendsOneFrame and WriteCommandFrame. -/
theorem witness_WriteCommandEventCounts :
    (∃ t, exec (.writeCommand 1#8) (holding [0x02#8] (List.replicate 9 0x00#8 ++ [0x01#8])) = .next t) ∧
    ∃ t, exec (.writeCommand 1#8) (holding [0x02#8] (List.replicate 10 0x00#8)) = .next t :=
  ⟨⟨_, rfl⟩, ⟨_, rfl⟩⟩

/-- Budgets 1 and 3 (95_test_vectors.md 2.7). -/
theorem witness_ReadResponseTimesOut :
    Accepting (fresh [0x00#8, 0x00#8, 0x00#8, 0x00#8]) ∧ (4#8 : Byte).toNat ≤ (fresh []).rbufSize ∧
    (1#16 : BitVec 16) ≠ 0#16 ∧ NotReadyFor (fresh [0x00#8, 0x00#8, 0x00#8, 0x00#8]) 0 2 ∧
    (3#16 : BitVec 16) ≠ 0#16 ∧ NotReadyFor (fresh [0x00#8, 0x00#8, 0x00#8, 0x00#8]) 0 4 := by
  refine ⟨accepting_fresh _, by decide, by decide, ?_, by decide, ?_⟩ <;> simp only [NotReadyFor] <;> decide

/-- Ready at the first query, taken at its issue with any budget. -/
theorem answered_first (op : Byte) (frame : List Byte) (cap : BitVec 8) (t : BitVec 16) :
    Answered (commanded op (ready frame)) cap t 0 := by
  refine ⟨.inl ⟨accepting_commanded _ _, ?_⟩, ⟨fun j hj => absurd hj (Nat.not_lt_zero j), (by decide : (0x01#8).getLsbD 0 = true)⟩, ?_⟩
  · have h := cap.isLt
    simp only [commanded, fresh]
    omega
  · unfold WithinBudget; split <;> omega

/-- Ready at the next step of a wait. -/
theorem answered_waiting (op : Byte) (frame : List Byte) : Answered (waiting op (ready frame)) 4#8 0#16 0 :=
  ⟨.inr ⟨⟨rfl, rfl, rfl, rfl⟩, rfl⟩, ⟨fun j hj => absurd hj (Nat.not_lt_zero j), (by decide : (0x01#8).getLsbD 0 = true)⟩, rfl⟩

/-- Ready at the last query a budget of 3 allows. -/
theorem answered_last :
    Answered (commanded 0x4A#8 ([0x00#8, 0x00#8, 0x00#8] ++ ready frameEQ)) 4#8 3#16 3 := by
  refine ⟨.inl ⟨accepting_commanded _ _, by decide⟩, ?_, ?_⟩
  · simp only [ReadyAtQuery, NotReadyFor]; decide
  · unfold WithinBudget; decide

/-- The three ways to be answered, and both kinds of verdict. -/
theorem witness_ReadResponseFollowsExitTable :
    Answered (commanded 0x4A#8 (ready frameEQ)) 4#8 0#16 0 ∧
    Answered (waiting 0x4A#8 (ready frameEQ)) 4#8 0#16 0 ∧
    Answered (commanded 0x4A#8 ([0x00#8, 0x00#8, 0x00#8] ++ ready frameEQ)) 4#8 3#16 3 ∧
    Memory.wf (commanded 0x4A#8 []).rbuf = true ∧
    (readExit (some 0x4A#8) 4 fun j => (commanded 0x4A#8 (ready frameEQ)).upcoming (0 + 1 + j)).verdict = some (.okCount 4) ∧
    (readExit none 4 fun j => (commanded 0x4A#8 (ready frameEQ)).upcoming (0 + 1 + j)).verdict = none :=
  ⟨answered_first _ _ _ _, answered_waiting _ _, answered_last, rfl, by decide, by decide⟩

/-- An unbounded wait, ready at the first and at the third query. -/
theorem witness_UnboundedWaitEndsByExitTable :
    ∃ s s' : State, Accepting s ∧ s.port = some (.issue 0x00000432#32) ∧ ReadyAtQuery s 0 ∧ Memory.wf s.rbuf = true ∧
      Accepting s' ∧ s'.port = some (.issue 0x00000432#32) ∧ ReadyAtQuery s' 2 ∧
      decode 0x00000432#32 = .ok (.readResponse 4#8 0#16) ∧ (4#8 : Byte).toNat ≤ s.rbufSize := by
  refine ⟨{ commanded 0x4A#8 (ready frameEQ) with port := some (.issue 0x00000432#32) },
    { commanded 0x4A#8 ([0x00#8, 0x00#8] ++ ready frameEQ) with port := some (.issue 0x00000432#32) },
    ⟨rfl, by decide⟩, rfl, ?_, rfl, ⟨rfl, by decide⟩, rfl, ?_, by decide, by decide⟩ <;>
    simp only [ReadyAtQuery, NotReadyFor] <;> decide

theorem witness_UnboundedWaitRests :
    (Accepting (fresh [0x00#8]) ∧ (255#8 : Byte).toNat ≤ (fresh [0x00#8]).rbufSize ∧
      ((fresh [0x00#8]).upcoming 0).getLsbD 0 = false) ∧
    (waiting 0x4A#8 [0x00#8]).phase = .poll ∧ (waiting 0x4A#8 [0x00#8]).port = none ∧
    (waiting 0x4A#8 [0x00#8]).op = some (.readResponse 4#8 0#16) ∧ (waiting 0x4A#8 [0x00#8]).elapsed = some 5 ∧
    ((waiting 0x4A#8 [0x00#8]).upcoming 0).getLsbD 0 = false :=
  ⟨⟨accepting_fresh _, by decide, by decide⟩, rfl, rfl, rfl, rfl, by decide⟩

theorem witness_UnboundedWaitNeverEnds :
    ∃ s : State, Accepting s ∧ (4#8 : Byte).toNat ≤ s.rbufSize ∧ s.port = some (.issue 0x00000432#32) ∧
      decode 0x00000432#32 = .ok (.readResponse 4#8 0#16) ∧ NotReadyFor s 0 (2 + 1) := by
  refine ⟨{ fresh [0x00#8, 0xFE#8, 0x00#8] with port := some (.issue 0x00000432#32) }, ⟨rfl, by decide⟩, by decide, rfl,
    by decide, ?_⟩
  simp only [NotReadyFor]; decide

/-- The round trips of 95_test_vectors.md 2.5 with no payload and with a payload that fills the capacity. -/
theorem witness_ResponseRoundTrip :
    ((commanded 0x4A#8 (ready [0x00#8, 0x00#8, 0xFF#8, 0x02#8, 0xFE#8, 0xD5#8, 0x4B#8, 0xE0#8, 0x00#8])).answers 1 9 =
      responseEnvelope 0x4A#8 []) ∧
    (commanded 0x4A#8 (ready frameEQ)).answers 1 13 = responseEnvelope 0x4A#8 [0xAA#8, 0xBB#8, 0xCC#8, 0xDD#8] ∧
    ((commanded 0x4A#8 (ready frameEQ)).upcoming 0).getLsbD 0 = true ∧ Accepting (commanded 0x4A#8 (ready frameEQ)) ∧
    (commanded 0x4A#8 (ready frameEQ)).pendingOp = some 0x4A#8 ∧ Memory.wf (commanded 0x4A#8 (ready frameEQ)).rbuf = true ∧
    (4#8 : Byte).toNat ≤ (commanded 0x4A#8 (ready frameEQ)).rbufSize ∧ 4 ≤ 253 :=
  ⟨by decide, by decide, by decide, accepting_commanded _ _, rfl, rfl, by decide, by decide⟩

/-- Vectors F1, F2 and F3. -/
theorem witness_HeaderMismatchExits :
    (Answered (commanded 0x4A#8 (ready [0x01#8])) 4#8 1#16 0 ∧ (commanded 0x4A#8 (ready [0x01#8])).upcoming 1 ≠ 0x00#8) ∧
    (Answered (waiting 0x4A#8 (ready [0x00#8, 0x01#8])) 4#8 0#16 0 ∧
      (waiting 0x4A#8 (ready [0x00#8, 0x01#8])).upcoming 1 = 0x00#8 ∧
      (waiting 0x4A#8 (ready [0x00#8, 0x01#8])).upcoming 2 ≠ 0x00#8) ∧
    Answered (commanded 0x4A#8 (ready [0x00#8, 0x00#8, 0xFE#8])) 0#8 0#16 0 ∧
    (commanded 0x4A#8 (ready [0x00#8, 0x00#8, 0xFE#8])).upcoming 3 ≠ 0xFF#8 :=
  ⟨⟨answered_first _ _ _ _, by decide⟩, ⟨answered_waiting _ _, by decide, by decide⟩, answered_first _ _ _ _, by decide⟩

/-- Vector F4. -/
theorem witness_LengthMismatchExit :
    Answered (commanded 0x4A#8 (ready [0x00#8, 0x00#8, 0xFF#8, 0x06#8, 0xFB#8])) 4#8 1#16 0 ∧
    (commanded 0x4A#8 (ready [0x00#8, 0x00#8, 0xFF#8, 0x06#8, 0xFB#8])).answers 1 3 = [0x00#8, 0x00#8, 0xFF#8] ∧
    (commanded 0x4A#8 (ready [0x00#8, 0x00#8, 0xFF#8, 0x06#8, 0xFB#8])).upcoming 4 +
      (commanded 0x4A#8 (ready [0x00#8, 0x00#8, 0xFF#8, 0x06#8, 0xFB#8])).upcoming 5 ≠ 0#8 :=
  ⟨answered_first _ _ _ _, by decide, by decide⟩

/-- Vectors F5, Z1 (no pending opcode) and F6; pending opcode FF expects 00. -/
theorem witness_DirectionAndEchoChecks :
    (Answered (commanded 0x4A#8 (ready [0x00#8, 0x00#8, 0xFF#8, 0x06#8, 0xFA#8, 0xD4#8])) 4#8 1#16 0 ∧
      (commanded 0x4A#8 (ready [0x00#8, 0x00#8, 0xFF#8, 0x06#8, 0xFA#8, 0xD4#8])).upcoming 6 ≠ 0xD5#8) ∧
    (Answered { commanded 0x4A#8 (ready frameEQ) with pendingOp := none } 4#8 1#16 0 ∧
      (commanded 0x4A#8 (ready frameEQ)).answers 1 6 = [0x00#8, 0x00#8, 0xFF#8, 0x06#8, 0xFA#8, 0xD5#8]) ∧
    (commanded 0xFF#8 (ready frameEQ)).upcoming 7 ≠ 0xFF#8 + 1#8 ∧ (0xFF#8 : Byte) + 1#8 = 0x00#8 :=
  ⟨⟨answered_first _ _ _ _, by decide⟩,
    ⟨⟨.inl ⟨accepting_commanded 0x4A#8 (ready frameEQ), by decide⟩, (answered_first 0x4A#8 frameEQ 4#8 1#16).2⟩, by decide⟩,
    by decide, by decide⟩

/-- Vectors E0 (`L` = 0), EQ (`EFF` = `CAP`), and N1 (`EFF` > `CAP`, also for NoSpaceDrainsFrame). -/
theorem witness_EffectiveLengthAgainstCapacity :
    (HeaderPasses (commanded 0x4A#8 (ready [0x00#8, 0x00#8, 0xFF#8, 0x00#8, 0x00#8, 0xD5#8, 0x4B#8])) 1 0x4A#8) ∧
    (Answered (commanded 0x4A#8 (ready frameEQ)) 4#8 1#16 0 ∧ HeaderPasses (commanded 0x4A#8 (ready frameEQ)) 1 0x4A#8 ∧
      ((commanded 0x4A#8 (ready frameEQ)).upcoming 4).toNat - 2 = 4) ∧
    Answered (commanded 0x4A#8 (ready frameN1)) 4#8 1#16 0 ∧ HeaderPasses (commanded 0x4A#8 (ready frameN1)) 1 0x4A#8 ∧
    (4#8 : Byte).toNat < ((commanded 0x4A#8 (ready frameN1)).upcoming 4).toNat - 2 := by
  refine ⟨?_, ⟨answered_first _ _ _ _, ?_, by decide⟩, answered_first _ _ _ _, ?_, by decide⟩ <;>
    simp only [HeaderPasses] <;> decide

/-- `L` = 2 and 255, and `EFF` = `CAP` + 1. -/
theorem witness_EffectiveLengthEdges :
    (Answered (commanded 0x4A#8 (ready [0x00#8, 0x00#8, 0xFF#8, 0x02#8, 0xFE#8, 0xD5#8, 0x4B#8])) 4#8 1#16 0 ∧
      HeaderPasses (commanded 0x4A#8 (ready [0x00#8, 0x00#8, 0xFF#8, 0x02#8, 0xFE#8, 0xD5#8, 0x4B#8])) 1 0x4A#8) ∧
    (Answered (commanded 0x4A#8 (ready [0x00#8, 0x00#8, 0xFF#8, 0xFF#8, 0x01#8, 0xD5#8, 0x4B#8])) 253#8 1#16 0 ∧
      HeaderPasses (commanded 0x4A#8 (ready [0x00#8, 0x00#8, 0xFF#8, 0xFF#8, 0x01#8, 0xD5#8, 0x4B#8])) 1 0x4A#8) ∧
    Answered (commanded 0x4A#8 (ready [0x00#8, 0x00#8, 0xFF#8, 0x07#8, 0xF9#8, 0xD5#8, 0x4B#8])) 4#8 1#16 0 ∧
    HeaderPasses (commanded 0x4A#8 (ready [0x00#8, 0x00#8, 0xFF#8, 0x07#8, 0xF9#8, 0xD5#8, 0x4B#8])) 1 0x4A#8 ∧
    ((commanded 0x4A#8 (ready [0x00#8, 0x00#8, 0xFF#8, 0x07#8, 0xF9#8, 0xD5#8, 0x4B#8])).upcoming 4).toNat - 2 =
      (4#8 : Byte).toNat + 1 := by
  refine ⟨⟨answered_first _ _ _ _, ?_⟩, ⟨answered_first _ _ _ _, ?_⟩, answered_first _ _ _ _, ?_, by decide⟩ <;>
    simp only [HeaderPasses] <;> decide

/-- Vectors EQ (the checksum is good) and F8 (it is not), at `EFF` = `CAP`. -/
theorem witness_PayloadReceived :
    Answered (commanded 0x4A#8 (ready frameF8)) 4#8 1#16 0 ∧ HeaderPasses (commanded 0x4A#8 (ready frameF8)) 1 0x4A#8 ∧
    Answered (waiting 0x4A#8 (ready frameEQ)) 4#8 0#16 0 ∧ HeaderPasses (waiting 0x4A#8 (ready frameEQ)) 1 0x4A#8 ∧
    0xD5#8 + (0x4A#8 + 1#8) + byteSum ((commanded 0x4A#8 (ready frameF8)).answers 8 4) +
      (commanded 0x4A#8 (ready frameF8)).upcoming 12 ≠ 0#8 ∧
    0xD5#8 + (0x4A#8 + 1#8) + byteSum ((waiting 0x4A#8 (ready frameEQ)).answers 8 4) +
      (waiting 0x4A#8 (ready frameEQ)).upcoming 12 = 0#8 ∧
    Memory.wf (commanded 0x4A#8 (ready frameF8)).rbuf = true ∧ 4 ≤ (4#8 : Byte).toNat := by
  refine ⟨answered_first _ _ _ _, ?_, answered_waiting _ _, ?_, by decide, by decide, rfl, by decide⟩ <;>
    simp only [HeaderPasses] <;> decide

/-- An operation that ends in a later step of its wait. Also for ResultsByOperation. -/
theorem witness_ResponseCountBounded :
    ∃ t, LaterStep (.readResponse 4#8 0#16) (waiting 0x4A#8 (ready frameEQ)) t ∧ t.phase = .idle ∧
      t.result = some (.okCount 4) :=
  ⟨_, ⟨rfl, rfl, rfl, rfl⟩, rfl, by decide⟩

/-- At the issue (also for ResponseCountBounded, ResultsByOperation and ArraysWrittenOnlyByRule) and in a wait. -/
theorem witness_ReadResponseFrame :
    (∃ t, exec (.readResponse 4#8 1#16) (commanded 0x4A#8 (ready frameEQ)) = .next t ∧ t.result = some (.okCount 4)) ∧
    (∃ t, step (waiting 0x4A#8 [0x00#8]) = .next t) ∧ ∃ t, step (waiting 0x4A#8 (ready frameEQ)) = .next t :=
  ⟨⟨_, rfl, by decide⟩, ⟨_, rfl⟩, ⟨_, rfl⟩⟩

/-- Also for BoundedWaitsEnd. -/
theorem witness_ReadResponseCompletes :
    Accepting (commanded 0x4A#8 []) ∧ (255#8 : Byte).toNat ≤ (commanded 0x4A#8 []).rbufSize ∧
    (commanded 0x4A#8 []).pendingOp = some 0x4A#8 ∧ (1#8 : Byte) ≠ 0#8 ∧ (254#8 : Byte) ≠ 255#8 ∧ (1#16 : BitVec 16) ≠ 0#16 :=
  ⟨accepting_commanded _ _, by decide, rfl, by decide, by decide, by decide⟩

/-- Both ends of the count, a flag and an error. -/
theorem witness_ResultWords :
    (0 : Nat) ≤ 253 ∧ (253 : Nat) ≤ 253 ∧ (∃ e, Result.err .noSpace = .err e) ∧ ∃ b, Result.okBool false = .okBool b :=
  ⟨by decide, by decide, ⟨_, rfl⟩, ⟨_, rfl⟩⟩

/-- An operation of each kind ends. Also for WorkingRegistersByOperation. -/
theorem witness_ResultsByOperation :
    (∃ t r, exec .isReady (fresh [0x01#8]) = .next t ∧ t.result = some r) ∧
    (∃ t r, exec (.writeFrame 254#8) (fresh []) = .next t ∧ t.result = some r) ∧
    (∃ t r, exec (.writeCommand 1#8) (holding [0x02#8] (ready goodAck)) = .next t ∧ t.result = some r) ∧
    (∃ t r, exec .readAck (fresh goodAck) = .next t ∧ t.result = some r) ∧
    (∃ t r, exec (.readResponse 8#8 1#16) (commanded 0x02#8 (ready frameG1)) = .next t ∧ t.result = some r) ∧
    ∃ t r, exec .wake (fresh []) = .next t ∧ t.result = some r :=
  ⟨⟨_, _, rfl, rfl⟩, ⟨_, _, rfl, rfl⟩, ⟨_, _, rfl, rfl⟩, ⟨_, _, rfl, rfl⟩, ⟨_, _, rfl, rfl⟩, ⟨_, _, rfl, rfl⟩⟩

/-- An operation that ends and one that waits. -/
theorem witness_EndedOperationLeavesBlockIdle :
    (∃ t, exec .wake (fresh []) = .next t) ∧ ∃ t, exec (.readResponse 4#8 0#16) (fresh [0x00#8]) = .next t :=
  ⟨⟨_, rfl⟩, ⟨_, rfl⟩⟩

/-- Each reason of R105 that `exec` sees. -/
theorem witness_RefusedExactly :
    (waiting 0x4A#8 []).phase ≠ .idle ∧ (Instr.writeCommand 0#8).wellFormed = false ∧
    ({ fresh [] with ackRetries := 0 } : State).ackRetries = 0 ∧
    ({ fresh [] with rbufSize := 3 } : State).rbufSize < (4#8 : Byte).toNat := by decide

/-- A resting state whose step faults, at the issue (vector Z1). -/
theorem witness_OnlyFaultIsNoPendingOpcode :
    ∃ s : State, Resting s ∧ ∃ f, step s = .fault f :=
  ⟨{ fresh (ready frameEQ) with port := some (.issue 0x00010432#32) }, ⟨rfl, .inl ⟨rfl, rfl⟩⟩, _, rfl⟩

/-- An operation that keeps `PENDING_OP`, and a step that changes it. -/
theorem witness_OnlyWriteCommandSetsPendingOp :
    (∃ t, exec .wake (commanded 0x4A#8 []) = .next t) ∧
    ∃ s t : State, step s = .next t ∧ t.pendingOp ≠ s.pendingOp :=
  ⟨⟨_, rfl⟩, { holding [0x02#8] (ready goodAck) with port := some (.issue 0x00000122#32) }, _, rfl, by decide⟩

/-- A resting block that is idle and one that waits, each with a step. Also for StepExtendsTrace. -/
theorem witness_StepKeepsResting :
    (Resting (fresh []) ∧ ∃ t, step (fresh []) = .next t) ∧
    Resting (waiting 0x4A#8 [0x00#8]) ∧ ∃ t, step (waiting 0x4A#8 [0x00#8]) = .next t :=
  ⟨⟨⟨rfl, .inl ⟨rfl, rfl⟩⟩, _, rfl⟩, ⟨rfl, .inr ⟨rfl, rfl, 4#8, 5, rfl, rfl, by decide⟩⟩, _, rfl⟩

/-- A block that receives into RBUF at the next step. -/
theorem witness_StepKeepsMemories :
    Resting (waiting 0x4A#8 (ready frameEQ)) ∧ MemoriesKept (waiting 0x4A#8 (ready frameEQ)) ∧
    ∃ t, step (waiting 0x4A#8 (ready frameEQ)) = .next t ∧ t.rbuf ≠ [] :=
  ⟨⟨rfl, .inr ⟨rfl, rfl, 4#8, 5, rfl, rfl, by decide⟩⟩, ⟨rfl, rfl, fun _ h => absurd h List.not_mem_nil⟩, _, rfl, by decide⟩

theorem witness_StepKeepsBusDiscipline :
    busAfter (waiting 0x4A#8 (ready frameEQ)).trace = .released ∧ ∃ t, step (waiting 0x4A#8 (ready frameEQ)) = .next t :=
  ⟨rfl, _, rfl⟩

end Sys2Proof.Tests
end

section
/-! PROOFS. What each operation leaves when it answers a next state, said once as an inversion of `exec`, and the
statements about the registers and the caller's side that follow from it (spec/10_state.md). -/

namespace Sys2Proof.Machine

/-! ### The retry loop -/

/-- Within `n` queries there is a first ready answer, or none at all. -/
theorem readyAtQuery_or_notReadyFor (s : State) (n : Nat) : (∃ k, k < n ∧ ReadyAtQuery s k) ∨ NotReadyFor s 0 n := by
  induction n with
  | zero => exact .inr fun j hj => absurd hj (Nat.not_lt_zero j)
  | succ n ih =>
    rcases ih with ⟨k, hk, hr⟩ | hn
    · exact .inl ⟨k, by omega, hr⟩
    · by_cases hb : (s.upcoming n).getLsbD 0 = true
      · exact .inl ⟨n, by omega, hn, hb⟩
      · refine .inr fun j hj => ?_
        rcases Nat.lt_succ_iff_lt_or_eq.1 hj with hj | rfl
        · exact hn j hj
        · simpa using hb

/-- How the retry loop (R63) leaves, from `POLLS = 0`. -/
theorem State.pollRetries_cases {n : Nat} {v : State} (hn : n ≠ 0) (hp : v.polls = some 0) :
    (∃ k, k < n ∧ ReadyAtQuery v k ∧ State.pollRetries n 0 v = (true, (v.afterReady k).setPolls k)) ∨
    (NotReadyFor v 0 n ∧ State.pollRetries n 0 v = (false, (v.afterRounds n).setPolls n)) := by
  rcases readyAtQuery_or_notReadyFor v n with ⟨k, hk, hr⟩ | hr
  · exact .inl ⟨k, hk, hr, by rw [State.pollRetries_ready hr hk hp, Nat.zero_add]⟩
  · obtain ⟨m, rfl⟩ := Nat.exists_eq_succ_of_ne_zero hn
    exact .inr ⟨hr, by rw [State.pollRetries_exhausted hr, Nat.zero_add]⟩

/-! ### WRITE_COMMAND -/

/-- WRITE_COMMAND before its retry loop (R76): `PENDING_OP` written, the frame sent, `POLLS = 0`. -/
def State.commandSent (n : Nat) (s : State) : State := ((s.setPendingOp (s.readCmd 0)).sendFrame n).setPolls 0

/-- Every state WRITE_COMMAND can end in once its frame is sent, by its three results (R76, R100). -/
inductive CommandLeaves (v : State) : State → Prop where
  | acknowledged {k : Nat} (hk : k < v.ackRetries) (hr : ReadyAtQuery v k)
      (ha : ((v.afterReady k).setPolls k).ackQuery.1 = true) :
      CommandLeaves v (((v.afterReady k).setPolls k).ackQuery.2.finish .okUnit)
  | invalidAck {k : Nat} (hk : k < v.ackRetries) (hr : ReadyAtQuery v k)
      (ha : ((v.afterReady k).setPolls k).ackQuery.1 = false) :
      CommandLeaves v (((v.afterReady k).setPolls k).ackQuery.2.raise .invalidAck)
  | timeout (hr : NotReadyFor v 0 v.ackRetries) :
      CommandLeaves v (((v.afterRounds v.ackRetries).setPolls v.ackRetries).raise .timeout)

theorem State.commandSent_polls (n : Nat) (s : State) : (s.commandSent n).polls = some 0 := State.setPolls_polls _ _

theorem State.commandCycle_eq (n : Nat) (s : State) :
    s.commandCycle n = State.afterRetries (State.pollRetries (s.commandSent n).ackRetries 0 (s.commandSent n)) := rfl

/-- WRITE_COMMAND ends in one of the three ways. -/
theorem State.commandCycle_leaves (n : Nat) {s : State} (h : s.ackRetries ≠ 0) :
    CommandLeaves (s.commandSent n) (s.commandCycle n) := by
  have hn : (s.commandSent n).ackRetries ≠ 0 := by simpa [State.commandSent] using h
  rw [State.commandCycle_eq]
  rcases State.pollRetries_cases hn (State.commandSent_polls n s) with ⟨k, hk, hr, h⟩ | ⟨hr, h⟩ <;> rw [h, State.afterRetries]
  · rw [if_pos rfl]
    split
    · next ha => exact .acknowledged hk hr ha
    · next ha => exact .invalidAck hk hr (by simpa using ha)
  · exact .timeout hr

/-! ### READ_RESPONSE -/

/-- Every state READ_RESPONSE can leave a step in, from `v` in its poll loop with `ELAPSED` at `e`: the end of its read
section, Timeout, or, with an unbounded budget, its poll loop again. -/
inductive ResponseLeaves (cap : BitVec 8) (b : BitVec 16) (e : Nat) (v : State) : State → Prop where
  | ended {k : Nat} {u : State} (hk : k < queriesPerStep b.toNat)
      (hu : SectionEnded cap.toNat ((v.afterReady k).setElapsed (e + k)) u) : ResponseLeaves cap b e v u
  | timeout {k : Nat} (hk : k < queriesPerStep b.toNat) (hb : b ≠ 0#16) :
      ResponseLeaves cap b e v (((v.afterRounds (k + 1)).setElapsed (e + (k + 1))).raise .timeout)
  | waits (hb : b = 0#16) : ResponseLeaves cap b e v (((v.afterRounds 1).setElapsed (e + 1)).setPhase .poll)

/-- A READ_RESPONSE that answers a next state leaves it in one of these ways. -/
theorem State.awaitResponse_leaves {cap : BitVec 8} {b : BitVec 16} {e : Nat} {v u : State} (he : v.elapsed = some e)
    (h : v.awaitResponse cap.toNat b.toNat e = .next u) : ResponseLeaves cap b e v u := by
  rcases State.awaitResponse_cases cap.toNat b.toNat e v he with
    ⟨k, w, hk, hw, hs⟩ | ⟨k, -, -, hw⟩ | ⟨k, hk, hb, hw⟩ | ⟨hb, hw⟩ <;> rw [hw] at h <;> cases h
  · exact .ended hk hs
  · exact .timeout hk (by rintro rfl; simp at hb)
  · exact .waits (BitVec.eq_of_toNat_eq hb)

/-! ### Every operation -/

/-- Every state an operation issued in `s` can leave as its next state. -/
inductive OperationLeaves (s : State) : Instr → State → Prop where
  | isReady :
      OperationLeaves s .isReady ((s.start .isReady).statusQuery.2.finish (.okBool (readyBit (s.upcoming 0))))
  | writeFrame (n : BitVec 8) :
      OperationLeaves s (.writeFrame n) (((s.start (.writeFrame n)).sendFrame n.toNat).finish .okUnit)
  | writeCommand {n : BitVec 8} {t : State} (h : CommandLeaves ((s.start (.writeCommand n)).commandSent n.toNat) t) :
      OperationLeaves s (.writeCommand n) t
  | readAck :
      OperationLeaves s .readAck ((s.start .readAck).ackQuery.2.finish (.okBool (s.start .readAck).ackQuery.1))
  | readResponse {cap : BitVec 8} {b : BitVec 16} {t : State}
      (h : ResponseLeaves cap b 0 ((s.start (.readResponse cap b)).setElapsed 0) t) :
      OperationLeaves s (.readResponse cap b) t
  | wake : OperationLeaves s .wake ((s.start .wake).wakeBracket.finish .okUnit)

/-- The inversion of `exec`: an operation that answers a next state leaves it as above. -/
theorem exec_leaves {i : Instr} {s t : State} (h : exec i s = .next t) : OperationLeaves s i t := by
  cases i with
  | isReady =>
    rw [exec, execIsReady] at h
    obtain ⟨-, -, -, h⟩ := issue_next h
    cases h; exact .isReady
  | writeFrame n =>
    rw [exec, execWriteFrame] at h
    obtain ⟨-, -, -, h⟩ := issue_next h
    cases h; exact .writeFrame n
  | writeCommand n =>
    rw [exec, execWriteCommand] at h
    obtain ⟨⟨-, hr⟩, -, -, h⟩ := issue_next h
    cases h; exact .writeCommand (State.commandCycle_leaves n.toNat hr)
  | readAck =>
    rw [exec, execReadAck] at h
    obtain ⟨-, -, -, h⟩ := issue_next h
    cases h; exact .readAck
  | readResponse cap b =>
    obtain ⟨-, -, h⟩ := exec_readResponse_next h
    exact .readResponse (State.awaitResponse_leaves rfl h)
  | wake =>
    rw [exec, execWake] at h
    obtain ⟨-, -, -, h⟩ := issue_next h
    cases h; exact .wake

/-- READ_RESPONSE at its issue starts from `ELAPSED = 0`. -/
theorem exec_readResponse_leaves {cap : BitVec 8} {b : BitVec 16} {s t : State}
    (h : exec (.readResponse cap b) s = .next t) :
    ResponseLeaves cap b 0 ((s.start (.readResponse cap b)).setElapsed 0) t := by
  cases exec_leaves h with
  | readResponse h => exact h

/-- A later step belongs to a READ_RESPONSE, and leaves what its poll loop leaves. -/
theorem LaterStep.leaves {i : Instr} {s t : State} (h : LaterStep i s t) :
    ∃ cap b e, i = .readResponse cap b ∧ ResponseLeaves cap b e s t := by
  obtain ⟨hphase, -, hop, hstep⟩ := h
  rcases step_next_cases hstep with ⟨hidle, -⟩ | ⟨-, -, cap, b, e, hop', he, hw⟩
  · rw [hphase] at hidle; cases hidle
  · rw [hop] at hop'; cases hop'
    exact ⟨cap, b, e, rfl, State.awaitResponse_leaves he hw⟩

/-- A later step of a READ_RESPONSE. -/
theorem LaterStep.readResponse_leaves {cap : BitVec 8} {b : BitVec 16} {s t : State}
    (h : LaterStep (.readResponse cap b) s t) : ∃ e, ResponseLeaves cap b e s t := by
  obtain ⟨cap, b, e, hi, h⟩ := h.leaves
  cases hi
  exact ⟨e, h⟩

/-! ### What operations keep -/

/-- What no operation writes: configuration (R23), CMD (R25), the length of RBUF (R26) and the caller's side. -/
structure CallerSideKept (s t : State) : Prop where
  ackRetries : t.ackRetries = s.ackRetries
  cmd : t.cmd = s.cmd
  rbufSize : t.rbufSize = s.rbufSize
  port : t.port = s.port
  agenda : t.agenda = s.agenda

theorem CallerSideKept.trans {s v t : State} (h : CallerSideKept s v) (h' : CallerSideKept v t) : CallerSideKept s t where
  ackRetries := h'.ackRetries.trans h.ackRetries
  cmd := h'.cmd.trans h.cmd
  rbufSize := h'.rbufSize.trans h.rbufSize
  port := h'.port.trans h.port
  agenda := h'.agenda.trans h.agenda

theorem State.commandSent_kept (n : Nat) (s : State) : CallerSideKept s (s.commandSent n) := by
  constructor <;> simp [State.commandSent]

theorem CommandLeaves.kept {v t : State} (h : CommandLeaves v t) : CallerSideKept v t := by
  cases h <;> constructor <;> simp

theorem ResponseLeaves.kept {cap : BitVec 8} {b : BitVec 16} {e : Nat} {v t : State} (h : ResponseLeaves cap b e v t) :
    CallerSideKept v t := by
  cases h with
  | ended _ hu =>
    obtain ⟨-, -, -, hretries, hcmd, hsize, hport, hagenda⟩ := hu.kept
    exact ⟨hretries, hcmd, hsize, hport, hagenda⟩
  | timeout => exact ⟨rfl, rfl, rfl, rfl, rfl⟩
  | waits => exact ⟨rfl, rfl, rfl, rfl, rfl⟩

theorem OperationLeaves.kept {i : Instr} {s t : State} (h : OperationLeaves s i t) : CallerSideKept s t := by
  cases h with
  | isReady => constructor <;> simp
  | writeFrame => constructor <;> simp
  | writeCommand h => exact .trans (by constructor <;> rfl) ((State.commandSent_kept _ _).trans h.kept)
  | readAck => constructor <;> simp
  | readResponse h => exact .trans (by constructor <;> rfl) h.kept
  | wake => exact ⟨rfl, rfl, rfl, rfl, rfl⟩

/-- WRITE_COMMAND writes neither `PENDING_OP` nor RBUF after its first step (R77). -/
theorem CommandLeaves.pendingOp_rbuf {v t : State} (h : CommandLeaves v t) :
    t.pendingOp = v.pendingOp ∧ t.rbuf = v.rbuf := by
  cases h <;> simp

/-- READ_RESPONSE keeps `PENDING_OP` (R94). -/
theorem ResponseLeaves.pendingOp_eq {cap : BitVec 8} {b : BitVec 16} {e : Nat} {v t : State}
    (h : ResponseLeaves cap b e v t) : t.pendingOp = v.pendingOp := by
  cases h with
  | ended _ hu => exact hu.pendingOp
  | timeout => rfl
  | waits => rfl

/-- READ_RESPONSE keeps the registers of the retry loop and the acknowledgment (R18, R19). -/
theorem ResponseLeaves.polls_ackBuf_eq {cap : BitVec 8} {b : BitVec 16} {e : Nat} {v t : State}
    (h : ResponseLeaves cap b e v t) : t.polls = v.polls ∧ t.ackBuf = v.ackBuf := by
  cases h with
  | ended _ hu => exact ⟨hu.kept.polls, hu.kept.ackBuf⟩
  | timeout => exact ⟨rfl, rfl⟩
  | waits => exact ⟨rfl, rfl⟩

/-- READ_RESPONSE leaves `ELAPSED` with a value. -/
theorem ResponseLeaves.elapsed_isSome {cap : BitVec 8} {b : BitVec 16} {e : Nat} {v t : State}
    (h : ResponseLeaves cap b e v t) : t.elapsed.isSome = true := by
  cases h with
  | ended _ hu => rw [hu.kept.elapsed]; rfl
  | timeout => rfl
  | waits => rfl

/-- READ_RESPONSE writes RBUF below `EFF` and below `CAP` only (R89, R93). -/
theorem ResponseLeaves.read_rbuf {cap : BitVec 8} {b : BitVec 16} {e : Nat} {v t : State} (h : ResponseLeaves cap b e v t)
    (hw : Memory.wf v.rbuf = true) {a : Nat} (ha : cap.toNat ≤ a ∨ ∀ m, t.eff = some m → m ≤ a) :
    Memory.read t.rbuf a = Memory.read v.rbuf a := by
  cases h with
  | ended _ hu =>
    rcases hu.rbuf with hr | ⟨m, hm, heff, hr⟩
    · rw [hr]; rfl
    · have hma : m ≤ a := ha.elim hm.trans fun h => h m heff
      rw [hr, State.setElapsed_rbuf, State.afterReady_rbuf, Memory.read_store _ hw, dif_neg (by simp [hma])]
  | timeout => rfl
  | waits => rfl

/-- An operation other than WRITE_COMMAND keeps `PENDING_OP`. -/
theorem OperationLeaves.pendingOp_eq {i : Instr} {s t : State} (h : OperationLeaves s i t)
    (hi : ∀ n, i ≠ .writeCommand n) : t.pendingOp = s.pendingOp := by
  cases h with
  | isReady => simp
  | writeFrame => simp
  | writeCommand => exact absurd rfl (hi _)
  | readAck => simp
  | readResponse h => exact h.pendingOp_eq
  | wake => rfl

/-- WRITE_COMMAND leaves the first byte of CMD in `PENDING_OP` and keeps RBUF. -/
theorem exec_writeCommand_pendingOp_rbuf {n : BitVec 8} {s t : State} (h : exec (.writeCommand n) s = .next t) :
    t.pendingOp = some (Memory.read s.cmd 0) ∧ t.rbuf = s.rbuf := by
  cases exec_leaves h with
  | writeCommand h =>
    obtain ⟨hpending, hrbuf⟩ := h.pendingOp_rbuf
    rw [hpending, hrbuf]
    simp [State.commandSent, State.readCmd]

/-! ### How operations end -/

/-- The operation has ended: a result, the block idle, select released (R13, R103, R107). -/
structure Ended (t : State) : Prop where
  sel : t.sel = .released
  result : ∃ r, t.result = some r
  phase : t.phase = .idle
  op : t.op = none

theorem Ended.resting {t : State} (h : Ended t) : Resting t := ⟨h.sel, .inl ⟨h.phase, h.op⟩⟩

theorem CommandLeaves.ended {v t : State} (h : CommandLeaves v t) : Ended t := by
  cases h <;> constructor <;> simp

theorem SectionEnded.ended {cap : Nat} {v u : State} (h : SectionEnded cap v u) : Ended u := by
  obtain ⟨n, hr, -⟩ | hr | hr := h.result <;> exact ⟨h.sel, ⟨_, hr⟩, h.phase, h.op⟩

/-- READ_RESPONSE ends, or rests in its poll loop with an unbounded budget. -/
theorem ResponseLeaves.ended_or_waits {cap : BitVec 8} {b : BitVec 16} {e : Nat} {v t : State}
    (h : ResponseLeaves cap b e v t) :
    Ended t ∨ (t.sel = .released ∧ t.result = v.result ∧ t.phase = .poll ∧ t.op = v.op ∧ b = 0#16) := by
  cases h with
  | ended _ hu => exact .inl hu.ended
  | timeout => exact .inl ⟨rfl, ⟨_, rfl⟩, rfl, rfl⟩
  | waits hb => exact .inr ⟨rfl, rfl, rfl, rfl, hb⟩

/-- Every operation ends, but for a READ_RESPONSE that rests in its poll loop. -/
theorem OperationLeaves.ended_or_waits {i : Instr} {s t : State} (h : OperationLeaves s i t) :
    Ended t ∨ (t.sel = .released ∧ t.result = none ∧ t.phase = .poll ∧ t.op = some i ∧ ∃ cap, i = .readResponse cap 0#16) := by
  cases h with
  | isReady => exact .inl (by constructor <;> simp)
  | writeFrame => exact .inl (by constructor <;> simp)
  | writeCommand h => exact .inl h.ended
  | readAck => exact .inl (by constructor <;> simp)
  | readResponse h =>
    rcases h.ended_or_waits with h | ⟨hsel, hresult, hphase, hop, rfl⟩
    · exact .inl h
    · exact .inr ⟨hsel, hresult, hphase, hop, _, rfl⟩
  | wake => exact .inl ⟨rfl, ⟨_, rfl⟩, rfl, rfl⟩

/-- A READ_RESPONSE whose RBUF is long enough leaves the block resting. -/
theorem ResponseLeaves.resting {cap : BitVec 8} {b : BitVec 16} {e : Nat} {v t : State} (h : ResponseLeaves cap b e v t)
    (hresult : v.result = none) (hop : v.op = some (.readResponse cap b)) (hcap : cap.toNat ≤ v.rbufSize) : Resting t := by
  rcases h.ended_or_waits with hended | ⟨hsel, hresult', hphase, hop', rfl⟩
  · exact hended.resting
  · obtain ⟨d, hd⟩ := Option.isSome_iff_exists.1 h.elapsed_isSome
    exact ⟨hsel, .inr ⟨hphase, hresult'.trans hresult, cap, d, hop'.trans hop, hd, h.kept.rbufSize ▸ hcap⟩⟩

/-- Every operation that answers a next state leaves the block resting. -/
theorem exec_resting {i : Instr} {s t : State} (h : exec i s = .next t) : Resting t := by
  obtain ⟨-, -, hneed⟩ := exec_next_accepting h
  rcases (exec_leaves h).ended_or_waits with hended | ⟨-, -, -, -, cap, rfl⟩
  · exact hended.resting
  · exact (exec_readResponse_leaves h).resting rfl rfl hneed

/-- The caller's move is no part of the block's registers or of CMD. -/
theorem MoveTaken.registers {s s0 : State} (h : MoveTaken s s0) :
    s0.sel = s.sel ∧ s0.phase = s.phase ∧ s0.op = s.op ∧ s0.pendingOp = s.pendingOp ∧ s0.cmd = s.cmd := by
  rcases h with rfl | ⟨ms, -, rfl⟩ <;> exact ⟨rfl, rfl, rfl, rfl, rfl⟩

/-- Supplying an array changes no register. -/
theorem Supplied.registers {s0 t : State} (h : Supplied s0 t) :
    t.sel = s0.sel ∧ t.phase = s0.phase ∧ t.op = s0.op ∧ t.pendingOp = s0.pendingOp := by
  rcases h with ⟨bytes, rfl⟩ | ⟨bytes, rfl⟩ | rfl <;> exact ⟨rfl, rfl, rfl, rfl⟩

/-! ### Results and working registers -/

/-- The results of READ_RESPONSE (R98), the count within the frame format and the capacity (R20, R49). -/
theorem ResponseLeaves.result_cases {cap : BitVec 8} {b : BitVec 16} {e : Nat} {v t : State}
    (h : ResponseLeaves cap b e v t) (ht : t.phase = .idle ∨ v.result = none) {r : Result} (hr : t.result = some r) :
    (∃ n, r = .okCount n ∧ n ≤ 253 ∧ n ≤ cap.toNat) ∨ r = .err .timeout ∨ r = .err .invalidFrame ∨ r = .err .noSpace := by
  cases h with
  | ended _ hu =>
    obtain ⟨n, hu, hn⟩ | hu | hu := hu.result <;> rw [hu] at hr <;> cases hr
    · exact .inl ⟨n, rfl, hn⟩
    · exact .inr (.inr (.inl rfl))
    · exact .inr (.inr (.inr rfl))
  | timeout => cases hr; exact .inr (.inl rfl)
  | waits =>
    rcases ht with ht | ht
    · cases ht
    · rw [State.setPhase_result, State.setElapsed_result, State.afterRounds_result, ht] at hr; cases hr

/-- The count READ_RESPONSE returns is within the frame format and the capacity (R20, R49). -/
theorem ResponseLeaves.count_bounded {cap : BitVec 8} {b : BitVec 16} {e n : Nat} {v t : State}
    (h : ResponseLeaves cap b e v t) (ht : t.phase = .idle ∨ v.result = none) (hr : t.result = some (.okCount n)) :
    n ≤ 253 ∧ n ≤ cap.toNat := by
  rcases h.result_cases ht hr with ⟨m, hm, hbound⟩ | hr | hr | hr
  · cases hm; exact hbound
  all_goals cases hr

/-- The results of WRITE_COMMAND (R76, R100). -/
theorem CommandLeaves.result_cases {v t : State} (h : CommandLeaves v t) {r : Result} (hr : t.result = some r) :
    r = .okUnit ∨ r = .err .timeout ∨ r = .err .invalidAck := by
  cases h <;> cases hr <;> simp

/-- WRITE_COMMAND after its frame writes `POLLS` and `ACKBUF` only. -/
theorem CommandLeaves.working {v t : State} (h : CommandLeaves v t) :
    t.acc = v.acc ∧ t.len = v.len ∧ t.elapsed = v.elapsed ∧ t.polls.isSome = true ∧ (SectionUnset v → SectionUnset t) := by
  cases h <;> simp [SectionUnset]

/-! ### The statements -/

/-- Settles O52: an operation leaves the block resting, a supplied array changes no register, and a wait goes on or ends. -/
theorem stepKeepsResting : Obligations.StepKeepsResting := by
  intro s t ⟨hsel, hrest⟩ hstep
  rcases step_next_cases hstep with ⟨hidle, s0, hmove, ⟨i, hexec⟩ | hsupplied⟩ | ⟨hpoll, -, cap, b, e, hop, he, hw⟩
  · exact exec_resting hexec
  · obtain ⟨hsel0, hphase0, hop0, -⟩ := hmove.registers
    obtain ⟨hselt, hphaset, hopt, -⟩ := hsupplied.registers
    rcases hrest with ⟨-, hnone⟩ | ⟨hpoll, -⟩
    · exact ⟨by rw [hselt, hsel0, hsel], .inl ⟨by rw [hphaset, hphase0, hidle], by rw [hopt, hop0, hnone]⟩⟩
    · rw [hidle] at hpoll; cases hpoll
  · rcases hrest with ⟨hidle, -⟩ | ⟨-, hresult, cap', e', hop', -, hcap⟩
    · rw [hpoll] at hidle; cases hidle
    · rw [hop] at hop'; cases hop'
      exact (State.awaitResponse_leaves he hw).resting hresult hop hcap

/-- Settles O18: what every operation keeps, and the record each short operation leaves. -/
theorem shortOperationsFrame : Obligations.ShortOperationsFrame := by
  intro i s t hi h
  have hleaves := exec_leaves h
  obtain ⟨hretries, hcmd, hsize, hport, hagenda⟩ := hleaves.kept
  have hpending : t.pendingOp = s.pendingOp :=
    hleaves.pendingOp_eq fun n hn => by subst hn; simp at hi
  have hrbuf : t.rbuf = s.rbuf := by
    rcases hi with rfl | ⟨n, rfl⟩ | rfl | rfl <;> cases hleaves <;> simp [State.wakeBracket]
  exact ⟨hpending, hretries, hsize, hport, hagenda, fun _ => by rw [hcmd], fun _ => by rw [hrbuf]⟩

/-- Settles O25: what every operation keeps, and that only the first step of R76 writes `PENDING_OP`. -/
theorem writeCommandFrame : Obligations.WriteCommandFrame := by
  intro s t n h
  obtain ⟨hretries, hcmd, hsize, hport, hagenda⟩ := (exec_leaves h).kept
  obtain ⟨hpending, hrbuf⟩ := exec_writeCommand_pendingOp_rbuf h
  exact ⟨hpending, hretries, hsize, hport, hagenda, fun _ => by rw [hcmd], fun _ => by rw [hrbuf]⟩

/-- Settles O39: the issue and the later step leave what the poll loop leaves; at the issue the block is idle. -/
theorem readResponseFrame : Obligations.ReadResponseFrame := by
  rintro s t cap b hwf (h | h)
  · obtain ⟨⟨hidle, -⟩, -⟩ := exec_next_accepting h
    have hleaves := exec_readResponse_leaves h
    obtain ⟨hretries, hcmd, hsize, hport, hagenda⟩ := (exec_leaves h).kept
    exact ⟨hleaves.pendingOp_eq, hretries, hsize, hport, hagenda, fun hpoll => by simp [hidle] at hpoll,
      fun _ => by rw [hcmd], fun _ ha => hleaves.read_rbuf hwf ha⟩
  · obtain ⟨e, hleaves⟩ := LaterStep.readResponse_leaves h
    obtain ⟨hretries, hcmd, hsize, hport, hagenda⟩ := hleaves.kept
    exact ⟨hleaves.pendingOp_eq, hretries, hsize, hport, hagenda, fun _ => hleaves.polls_ackBuf_eq,
      fun _ => by rw [hcmd], fun _ ha => hleaves.read_rbuf hwf ha⟩

/-- Settles O40, from the read section's exits. -/
theorem responseCountBounded : Obligations.ResponseCountBounded := by
  rintro s t cap b n (h | ⟨h, hidle⟩) hr
  · exact (exec_readResponse_leaves h).count_bounded (.inr rfl) hr
  · obtain ⟨e, hleaves⟩ := h.readResponse_leaves
    exact hleaves.count_bounded (.inl hidle) hr

/-- Settles O44, from the state each operation leaves. -/
theorem workingRegistersByOperation : Obligations.WorkingRegistersByOperation := by
  intro i s t h
  cases exec_leaves h with
  | isReady => simp [SectionUnset]
  | writeFrame => simp [SectionUnset]
  | writeCommand h =>
    obtain ⟨hacc, hlen, helapsed, hpolls, hsection⟩ := h.working
    exact ⟨hsection (by simp [SectionUnset, State.commandSent]), by simp [hacc, State.commandSent],
      by simp [hlen, State.commandSent], hpolls, by simp [helapsed, State.commandSent]⟩
  | readAck => simp [SectionUnset]
  | readResponse h =>
    obtain ⟨hpolls, hack⟩ := h.polls_ackBuf_eq
    exact ⟨hpolls, h.elapsed_isSome, hack⟩
  | wake => simp [SectionUnset, State.wakeBracket]

/-- Settles O45, from the state each operation leaves; a later step belongs to a READ_RESPONSE. -/
theorem resultsByOperation : Obligations.ResultsByOperation := by
  rintro i s t r (h | ⟨h, hidle⟩) hr
  · cases exec_leaves h with
    | isReady => cases hr; exact ⟨_, rfl⟩
    | writeFrame => cases hr; rfl
    | writeCommand h => exact h.result_cases hr
    | readAck => cases hr; exact ⟨_, rfl⟩
    | readResponse h => exact (h.result_cases (.inr rfl) hr).imp_left fun ⟨n, hn, _⟩ => ⟨n, hn⟩
    | wake => cases hr; rfl
  · obtain ⟨cap, b, e, rfl, hleaves⟩ := h.leaves
    exact (hleaves.result_cases (.inl hidle) hr).imp_left fun ⟨n, hn, _⟩ => ⟨n, hn⟩

/-- Settles O46: an operation ends or waits, and `ACK_RETRIES` is kept. -/
theorem endedOperationLeavesBlockIdle : Obligations.EndedOperationLeavesBlockIdle := by
  intro i s t h
  obtain ⟨⟨-, hretries⟩, -⟩ := exec_next_accepting h
  refine (exec_leaves h).ended_or_waits.imp_left fun hended => ?_
  exact ⟨hended.sel, hended.result, hended.phase, hended.op, hended.phase, (exec_leaves h).kept.ackRetries ▸ hretries⟩

/-- Settles O49: the only step that does not keep `PENDING_OP` issues a WRITE_COMMAND. -/
theorem onlyWriteCommandSetsPendingOp : Obligations.OnlyWriteCommandSetsPendingOp := by
  refine ⟨fun i s t h hi => (exec_leaves h).pendingOp_eq hi, fun s t hstep hne => ?_⟩
  rcases step_next_cases hstep with ⟨-, s0, hmove, hdone⟩ | ⟨-, -, cap, b, e, -, he, hw⟩
  · obtain ⟨-, -, -, hpending0, hcmd0⟩ := hmove.registers
    rw [← hpending0] at hne
    rw [← hcmd0]
    rcases hdone with ⟨i, hexec⟩ | hsupplied
    · by_cases hi : ∃ n, i = .writeCommand n
      · obtain ⟨n, rfl⟩ := hi
        obtain ⟨hpending, -⟩ := exec_writeCommand_pendingOp_rbuf hexec
        exact hpending
      · exact absurd ((exec_leaves hexec).pendingOp_eq (not_exists.1 hi)) hne
    · obtain ⟨-, -, -, hpending⟩ := hsupplied.registers
      exact absurd hpending hne
  · exact absurd (State.awaitResponse_leaves he hw).pendingOp_eq hne

end Sys2Proof.Machine
end

section
/-! PROOFS. The caller's byte arrays, the two traces and the command interface (spec/20_memory.md): what the caller
supplies, which operation writes an array, and every step seen as exchanges on the bus. -/

namespace Sys2Proof.Machine

/-! ### The command interface -/

/-- An idle block takes the move that stands on the command interface. -/
theorem step_of_idle_port {s : State} {m : CallerMove} (hidle : s.phase = .idle) (hport : s.port = some m) :
    step s = callerMove m { s with port := none } := by
  simp only [step, advance, hidle, if_true, stepIdle, hport]

/-- No operation begins while one is in progress (R40, R105). -/
theorem issue_of_busy {i : Instr} {s : State} {body : State → Host.Outcome State Fault Refusal} (h : s.phase ≠ .idle) :
    issue i s body = .refused .busy := by
  simp only [issue, refusalOf, if_pos h]

/-- Every operation is an issue, so a busy block refuses them all. -/
theorem exec_of_busy (i : Instr) {s : State} (h : s.phase ≠ .idle) : exec i s = .refused .busy := by
  cases i <;>
    simp only [exec, execIsReady, execWriteFrame, execWriteCommand, execReadAck, execReadResponse, execWake, issue_of_busy h]

/-! ### The caller's byte arrays -/

/-- The array the caller supplies reads as its bytes (R25, R26). -/
theorem Memory.read_ofBytes : ∀ {bytes : List Byte} {lo i : Nat} {b : Byte}, bytes[i]? = some b →
    Memory.read (Memory.ofBytes lo bytes) (lo + i) = b
  | c :: bytes, lo, i, b, h => by
    rw [Memory.ofBytes, Memory.read_write_from _ _ _ (Memory.wfFrom_ofBytes bytes (lo + 1))]
    cases i with
    | zero => simpa using h
    | succ i =>
      rw [if_neg (by omega), show lo + (i + 1) = lo + 1 + i by omega]
      exact Memory.read_ofBytes (by simpa using h)

/-- An operation other than READ_RESPONSE keeps RBUF (R26). -/
theorem OperationLeaves.rbuf_eq {i : Instr} {s t : State} (h : OperationLeaves s i t)
    (hi : ∀ cap b, i ≠ .readResponse cap b) : t.rbuf = s.rbuf := by
  cases h with
  | isReady => simp
  | writeFrame => simp
  | writeCommand h =>
    obtain ⟨-, hrbuf⟩ := h.pendingOp_rbuf
    simp [hrbuf, State.commandSent]
  | readAck => simp
  | readResponse => exact absurd rfl (hi _ _)
  | wake => rfl

/-- The form of the arrays is a matter of CMD, RBUF and the length of RBUF alone. -/
theorem MemoriesKept.congr {s t : State} (h : MemoriesKept s) (hcmd : t.cmd = s.cmd) (hrbuf : t.rbuf = s.rbuf)
    (hsize : t.rbufSize = s.rbufSize) : MemoriesKept t := by
  rw [MemoriesKept, hcmd, hrbuf, hsize]; exact h

/-- Bytes received into RBUF from its beginning keep its form where RBUF has room for them. -/
theorem MemoriesKept.store {s t : State} {bytes : List Byte} (h : MemoriesKept s) (hcmd : t.cmd = s.cmd)
    (hrbuf : t.rbuf = Memory.store s.rbuf 0 bytes) (hsize : t.rbufSize = s.rbufSize) (hroom : bytes.length ≤ s.rbufSize) :
    MemoriesKept t := by
  obtain ⟨hcmdwf, hrbufwf, hbound⟩ := h
  rw [MemoriesKept, hcmd, hrbuf, hsize]
  refine ⟨hcmdwf, Memory.wf_store bytes hrbufwf, fun c hc => ?_⟩
  rcases Memory.mem_store bytes hc with hold | hnew
  · exact hbound c hold
  · omega

/-- A READ_RESPONSE whose `CAP` RBUF has room for keeps the form of the arrays: it stores at most `CAP` bytes (R93). -/
theorem ResponseLeaves.memoriesKept {cap : BitVec 8} {b : BitVec 16} {e : Nat} {v t : State}
    (h : ResponseLeaves cap b e v t) (hcap : cap.toNat ≤ v.rbufSize) (hv : MemoriesKept v) : MemoriesKept t := by
  cases h with
  | ended _ hu =>
    rcases hu.rbuf with hrbuf | ⟨m, hm, -, hrbuf⟩
    · exact hv.congr hu.kept.cmd hrbuf hu.kept.rbufSize
    · exact hv.store hu.kept.cmd hrbuf hu.kept.rbufSize (by rw [State.answers_length]; exact hm.trans hcap)
  | timeout => exact hv.congr rfl rfl rfl
  | waits => exact hv.congr rfl rfl rfl

/-- Every operation keeps the form of the arrays: only READ_RESPONSE writes one, and RBUF has room for its `CAP` (R105). -/
theorem exec_memoriesKept {i : Instr} {s t : State} (h : exec i s = .next t) (hs : MemoriesKept s) : MemoriesKept t := by
  by_cases hi : ∃ cap b, i = .readResponse cap b
  · obtain ⟨cap, b, rfl⟩ := hi
    obtain ⟨-, -, hneed⟩ := exec_next_accepting h
    exact (exec_readResponse_leaves h).memoriesKept hneed (hs.congr rfl rfl rfl)
  · have hleaves := exec_leaves h
    exact hs.congr hleaves.kept.cmd (hleaves.rbuf_eq fun cap b hc => hi ⟨cap, b, hc⟩) hleaves.kept.rbufSize

/-- Taking a move of the caller writes no array. -/
theorem MoveTaken.memoriesKept {s s0 : State} (h : MoveTaken s s0) (hs : MemoriesKept s) : MemoriesKept s0 := by
  rcases h with rfl | ⟨ms, -, rfl⟩ <;> exact hs.congr rfl rfl rfl

/-- What the caller supplies has the canonical form and no byte beyond its length. -/
theorem Supplied.memoriesKept {s t : State} (h : Supplied s t) (hs : MemoriesKept s) : MemoriesKept t := by
  obtain ⟨hcmd, hrbuf, hbound⟩ := hs
  rcases h with ⟨bytes, rfl⟩ | ⟨bytes, rfl⟩ | rfl
  · exact ⟨Memory.wf_ofBytes bytes, hrbuf, hbound⟩
  · exact ⟨hcmd, Memory.wf_ofBytes bytes, fun c hc => by simpa using Memory.index_ofBytes bytes 0 hc⟩
  · exact ⟨hcmd, hrbuf, hbound⟩

/-! ### Exchanges on the bus -/

/-- `t` comes after `s` by exchanges on the bus: whole brackets and sleeps between them (R28), with one draw consumed for
every byte received (R33). -/
def Exchanges (s t : State) : Prop :=
  ∃ new, t.trace = s.trace ++ new ∧ new.foldl busNext .released = .released ∧
    t.draws = s.draws + new.countP receivesByte ∧ t.peer = s.peer.drop (new.countP receivesByte)

/-- An update that records no event and draws no byte. -/
theorem Exchanges.of_silent {s t : State} (htrace : t.trace = s.trace) (hdraws : t.draws = s.draws)
    (hpeer : t.peer = s.peer) : Exchanges s t :=
  ⟨[], by simpa using htrace, rfl, hdraws, hpeer⟩

theorem Exchanges.trans {s v t : State} (h : Exchanges s v) (h' : Exchanges v t) : Exchanges s t := by
  obtain ⟨first, htrace, hbus, hdraws, hpeer⟩ := h
  obtain ⟨second, htrace', hbus', hdraws', hpeer'⟩ := h'
  refine ⟨first ++ second, ?_, ?_, ?_, ?_⟩
  · rw [htrace', htrace, List.append_assoc]
  · rw [List.foldl_append, hbus, hbus']
  · rw [hdraws', hdraws, List.countP_append, Nat.add_assoc]
  · rw [hpeer', hpeer, List.countP_append, List.drop_drop]

/-- Exchanges, and then an update that records no event and draws no byte. -/
theorem Exchanges.silent {s v t : State} (h : Exchanges s v) (htrace : t.trace = v.trace) (hdraws : t.draws = v.draws)
    (hpeer : t.peer = v.peer) : Exchanges s t := h.trans (.of_silent htrace hdraws hpeer)

/-- The end of an operation is silent (R107). -/
theorem Exchanges.finish {s v : State} (h : Exchanges s v) (r : Result) : Exchanges s (v.finish r) := h.silent rfl rfl rfl

theorem State.statusQuery_exchanges (s : State) : Exchanges s s.statusQuery.2 :=
  ⟨statusBracket (s.upcoming 0), by simp, statusBracket_kept _, by simp [statusBracket_received],
    by simp [statusBracket_received]⟩

theorem State.sendFrame_exchanges (n : Nat) (s : State) : Exchanges s (s.sendFrame n) :=
  ⟨frameBracket (envelope (dataBytes s n)), by simp, frameBracket_kept _, by simp [frameBracket_received],
    by simp [frameBracket_received]⟩

theorem State.commandSent_exchanges (n : Nat) (s : State) : Exchanges s (s.commandSent n) := by
  have begun : Exchanges s (s.setPendingOp (s.readCmd 0)) := .of_silent rfl rfl rfl
  exact (begun.trans (State.sendFrame_exchanges n _)).silent rfl rfl rfl

theorem State.ackQuery_exchanges (s : State) : Exchanges s s.ackQuery.2 :=
  ⟨ackBracket (s.answers 0 6), by simp, ackBracket_kept _, by simp [ackBracket_received], by simp [ackBracket_received]⟩

theorem State.wakeBracket_exchanges (s : State) : Exchanges s s.wakeBracket :=
  ⟨[.sel, .hold .wake, .rel], by simp [State.wakeBracket], rfl, rfl, rfl⟩

theorem State.afterRounds_exchanges (k : Nat) (s : State) : Exchanges s (s.afterRounds k) :=
  ⟨notReadyRounds (s.answers 0 k), rfl, notReadyRounds_kept _, by simp [notReadyRounds_received],
    by simp [notReadyRounds_received]⟩

theorem State.afterReady_exchanges (k : Nat) (s : State) : Exchanges s (s.afterReady k) :=
  ⟨notReadyRounds (s.answers 0 k) ++ statusBracket (s.upcoming k), by simp,
    by rw [List.foldl_append, notReadyRounds_kept, statusBracket_kept],
    by simp [notReadyRounds_received, statusBracket_received], by simp [notReadyRounds_received, statusBracket_received]⟩

/-- A read section that ends is one bracket, whichever exit it takes (R83). -/
theorem SectionEnded.exchanges {cap : Nat} {v u : State} (h : SectionEnded cap v u) : Exchanges v u := by
  obtain ⟨n, -, htrace, hdraws, hpeer⟩ := h.events
  exact ⟨openReadSection (v.answers 0 n) ++ [.rel], by rw [htrace, List.append_assoc], readSection_kept _,
    by rw [readSection_received, State.answers_length, hdraws], by rw [readSection_received, State.answers_length, hpeer]⟩

/-- WRITE_COMMAND after its frame: the retry loop's brackets, then the acknowledgment's where the device got ready (R78). -/
theorem CommandLeaves.exchanges {v t : State} (h : CommandLeaves v t) : Exchanges v t := by
  have ready (k : Nat) : Exchanges v ((v.afterReady k).setPolls k) := (v.afterReady_exchanges k).silent rfl rfl rfl
  cases h with
  | acknowledged => exact ((ready _).trans (State.ackQuery_exchanges _)).finish _
  | invalidAck => exact ((ready _).trans (State.ackQuery_exchanges _)).finish _
  | timeout => exact (v.afterRounds_exchanges _).silent rfl rfl rfl

/-- READ_RESPONSE: the brackets and sleeps of its poll loop (R65), then the read section's where the device got ready. -/
theorem ResponseLeaves.exchanges {cap : BitVec 8} {b : BitVec 16} {e : Nat} {v t : State}
    (h : ResponseLeaves cap b e v t) : Exchanges v t := by
  have ready (k : Nat) : Exchanges v ((v.afterReady k).setElapsed (e + k)) :=
    (v.afterReady_exchanges k).silent rfl rfl rfl
  cases h with
  | ended _ hu => exact (ready _).trans hu.exchanges
  | timeout => exact (v.afterRounds_exchanges _).silent rfl rfl rfl
  | waits => exact (v.afterRounds_exchanges _).silent rfl rfl rfl

/-- Every operation begins silently and then makes its exchanges. -/
theorem OperationLeaves.exchanges {i : Instr} {s t : State} (h : OperationLeaves s i t) : Exchanges s t := by
  have started : Exchanges s (s.start i) := .of_silent rfl rfl rfl
  cases h with
  | isReady => exact (started.trans (State.statusQuery_exchanges _)).finish _
  | writeFrame => exact (started.trans (State.sendFrame_exchanges _ _)).finish _
  | writeCommand h => exact (started.trans (State.commandSent_exchanges _ _)).trans h.exchanges
  | readAck => exact (started.trans (State.ackQuery_exchanges _)).finish _
  | @readResponse cap b _ h =>
    have polling : Exchanges s ((s.start (.readResponse cap b)).setElapsed 0) := started.silent rfl rfl rfl
    exact polling.trans h.exchanges
  | wake => exact (started.trans (State.wakeBracket_exchanges _)).finish _

/-- The caller's moves make no event. -/
theorem MoveTaken.exchanges {s s0 : State} (h : MoveTaken s s0) : Exchanges s s0 := by
  rcases h with rfl | ⟨ms, -, rfl⟩ <;> exact .of_silent rfl rfl rfl

theorem Supplied.exchanges {s0 t : State} (h : Supplied s0 t) : Exchanges s0 t := by
  rcases h with ⟨bytes, rfl⟩ | ⟨bytes, rfl⟩ | rfl <;> exact .of_silent rfl rfl rfl

/-- A step makes whole exchanges on the bus, and nothing else. -/
theorem step_exchanges {s t : State} (h : step s = .next t) : Exchanges s t := by
  rcases step_next_cases h with ⟨-, s0, hmove, ⟨i, hexec⟩ | hsupplied⟩ | ⟨-, -, cap, b, e, -, he, hw⟩
  · exact hmove.exchanges.trans (exec_leaves hexec).exchanges
  · exact hmove.exchanges.trans hsupplied.exchanges
  · exact (State.awaitResponse_leaves he hw).exchanges

/-! ### The statements -/

/-- Settles O53: operations store only what RBUF has room for, and what the caller supplies is canonical. -/
theorem stepKeepsMemories : Obligations.StepKeepsMemories := by
  rintro s t ⟨-, hrest⟩ hs hstep
  rcases step_next_cases hstep with ⟨-, s0, hmove, ⟨i, hexec⟩ | hsupplied⟩ | ⟨hpoll, -, cap, b, e, hop, he, hw⟩
  · exact exec_memoriesKept hexec (hmove.memoriesKept hs)
  · exact hsupplied.memoriesKept (hmove.memoriesKept hs)
  · rcases hrest with ⟨hidle, -⟩ | ⟨-, -, cap', e', hop', -, hcap⟩
    · rw [hpoll] at hidle; cases hidle
    · rw [hop] at hop'; cases hop'
      exact (State.awaitResponse_leaves he hw).memoriesKept hcap hs

/-- Settles O54: the events a step adds are whole brackets and sleeps between them. -/
theorem stepKeepsBusDiscipline : Obligations.StepKeepsBusDiscipline := by
  intro s t hbus hstep
  obtain ⟨new, htrace, hnew, -, -⟩ := step_exchanges hstep
  calc busAfter t.trace = new.foldl busNext (busAfter s.trace) := by rw [htrace, busAfter, List.foldl_append, busAfter]
    _ = .released := by rw [hbus, hnew]

/-- Settles O11, from what a canonical array reads as after its bytes are written. -/
theorem suppliedArraysRead : Obligations.SuppliedArraysRead := by
  intro s bytes hidle
  have hread (i : Nat) (b : Byte) (h : bytes[i]? = some b) : Memory.read (Memory.ofBytes 0 bytes) i = b := by
    simpa using Memory.read_ofBytes (lo := 0) h
  exact ⟨fun hport => ⟨_, step_of_idle_port hidle hport, hread, rfl⟩,
    fun hport => ⟨_, step_of_idle_port hidle hport, hread, rfl, rfl⟩⟩

/-- Settles O50, from the state each operation leaves. -/
theorem arraysWrittenOnlyByRule : Obligations.ArraysWrittenOnlyByRule := by
  intro i s t h
  have hleaves := exec_leaves h
  refine ⟨hleaves.kept.cmd, hleaves.kept.rbufSize, fun hne => by_contra fun hi => hne ?_⟩
  exact hleaves.rbuf_eq fun cap b hc => hi ⟨cap, b, hc⟩

/-- Settles O51: a step is exchanges on the bus. -/
theorem stepExtendsTrace : Obligations.StepExtendsTrace := by
  intro s t hstep
  obtain ⟨new, htrace, -, hdraws, hpeer⟩ := step_exchanges hstep
  exact ⟨new, htrace, hdraws, hpeer⟩

/-- Settles O9: the refusal comes before the caller's move or the operation is looked at (R106). -/
theorem busyBlockRefusesCaller : Obligations.BusyBlockRefusesCaller := by
  intro s hbusy
  refine ⟨fun m hport => ?_, fun i => exec_of_busy i hbusy⟩
  rw [step, advance, if_neg hbusy, stepBusy, hport]

/-- Settles O10: neither the port nor the agenda has a move to take. -/
theorem idleBlockWaits : Obligations.IdleBlockWaits := by
  intro s hidle hport hagenda
  rw [step, advance, if_pos hidle, stepIdle, hport, hagenda]

end Sys2Proof.Machine
end

section
/-! PROOFS. The decoder of descriptor words and its encoder, the caller's lines and moves that carry a word, the result
word, and the effective length of a response (spec/30_encoding.md). -/

namespace Sys2Proof

/-! ### The fields of a descriptor (R53) -/

@[simp] theorem opselOf_descriptorOf (a16 : BitVec 16) (a8 opsel : BitVec 8) :
    opselOf (descriptorOf a16 a8 opsel) = opsel := BitVec.extractLsb'_append_eq_right

@[simp] theorem a8Of_descriptorOf (a16 : BitVec 16) (a8 opsel : BitVec 8) : a8Of (descriptorOf a16 a8 opsel) = a8 := by
  rw [a8Of, descriptorOf, BitVec.extractLsb'_append_eq_of_le (Nat.le_refl 8)]
  exact BitVec.extractLsb'_append_eq_right

@[simp] theorem a16Of_descriptorOf (a16 : BitVec 16) (a8 opsel : BitVec 8) : a16Of (descriptorOf a16 a8 opsel) = a16 := by
  rw [a16Of, descriptorOf, BitVec.extractLsb'_append_eq_of_le (by decide)]
  exact BitVec.extractLsb'_append_eq_left

/-- A descriptor has no bit outside its three fields. -/
theorem descriptorOf_fields (w : Descriptor) : descriptorOf (a16Of w) (a8Of w) (opselOf w) = w := by
  rw [descriptorOf, a16Of, a8Of, opselOf, BitVec.extractLsb'_append_extractLsb'_eq_extractLsb' (by rfl),
    BitVec.extractLsb'_append_extractLsb'_eq_extractLsb' (by rfl)]
  exact BitVec.extractLsb'_eq_self

/-! ### The decoder by the rows of the opcode table (R54) -/

/-- Every word is of one of the table's rows, or its `OPSEL` is reserved. -/
inductive OpselRow : Descriptor → Prop where
  | isReady (a16 : BitVec 16) (a8 : BitVec 8) : OpselRow (descriptorOf a16 a8 0x11#8)
  | writeFrame (a16 : BitVec 16) (a8 : BitVec 8) : OpselRow (descriptorOf a16 a8 0x21#8)
  | writeCommand (a16 : BitVec 16) (a8 : BitVec 8) : OpselRow (descriptorOf a16 a8 0x22#8)
  | readAck (a16 : BitVec 16) (a8 : BitVec 8) : OpselRow (descriptorOf a16 a8 0x31#8)
  | readResponse (a16 : BitVec 16) (a8 : BitVec 8) : OpselRow (descriptorOf a16 a8 0x32#8)
  | wake (a16 : BitVec 16) (a8 : BitVec 8) : OpselRow (descriptorOf a16 a8 0x41#8)
  | reserved (a16 : BitVec 16) (a8 : BitVec 8) {opsel : BitVec 8}
      (h : opsel ∉ [0x11#8, 0x21#8, 0x22#8, 0x31#8, 0x32#8, 0x41#8]) : OpselRow (descriptorOf a16 a8 opsel)

theorem opselRow (w : Descriptor) : OpselRow w := by
  rw [← descriptorOf_fields w]
  by_cases h : opselOf w ∈ [0x11#8, 0x21#8, 0x22#8, 0x31#8, 0x32#8, 0x41#8]
  · simp only [List.mem_cons, List.not_mem_nil, or_false] at h
    rcases h with h | h | h | h | h | h <;> rw [h]
    · exact .isReady _ _
    · exact .writeFrame _ _
    · exact .writeCommand _ _
    · exact .readAck _ _
    · exact .readResponse _ _
    · exact .wake _ _
  · exact .reserved _ _ h

@[simp] theorem decode_isReady_row (a16 : BitVec 16) (a8 : BitVec 8) :
    decode (descriptorOf a16 a8 0x11#8) = reservedZero (a8 == 0#8 && a16 == 0#16) .isReady := by simp [decode]

@[simp] theorem decode_writeFrame_row (a16 : BitVec 16) (a8 : BitVec 8) :
    decode (descriptorOf a16 a8 0x21#8) = reservedZero (a16 == 0#16) (.writeFrame a8) := by simp [decode]

@[simp] theorem decode_writeCommand_row (a16 : BitVec 16) (a8 : BitVec 8) :
    decode (descriptorOf a16 a8 0x22#8) = reservedZero (a16 == 0#16) (.writeCommand a8) := by simp [decode]

@[simp] theorem decode_readAck_row (a16 : BitVec 16) (a8 : BitVec 8) :
    decode (descriptorOf a16 a8 0x31#8) = reservedZero (a8 == 0#8 && a16 == 0#16) .readAck := by simp [decode]

/-- READ_RESPONSE has no field that must be 0, and no operand out of range (R55, R56). -/
@[simp] theorem decode_readResponse_row (a16 : BitVec 16) (a8 : BitVec 8) :
    decode (descriptorOf a16 a8 0x32#8) = .ok (.readResponse a8 a16) := by
  simp [decode, inRange, Instr.wellFormed]

@[simp] theorem decode_wake_row (a16 : BitVec 16) (a8 : BitVec 8) :
    decode (descriptorOf a16 a8 0x41#8) = reservedZero (a8 == 0#8 && a16 == 0#16) .wake := by simp [decode]

theorem decode_reserved_row (a16 : BitVec 16) (a8 : BitVec 8) {opsel : BitVec 8}
    (h : opsel ∉ [0x11#8, 0x21#8, 0x22#8, 0x31#8, 0x32#8, 0x41#8]) :
    decode (descriptorOf a16 a8 opsel) = .error .badDescriptor := by
  simp only [List.mem_cons, List.not_mem_nil, or_false, not_or] at h
  simp [decode, h]

/-! ### The two judgements of a word (R55, R56) -/

@[simp] theorem reservedZero_eq_ok {zero : Bool} {i j : Instr} :
    reservedZero zero i = .ok j ↔ zero = true ∧ i.wellFormed = true ∧ i = j := by
  cases zero <;> cases hi : i.wellFormed <;> simp [reservedZero, inRange, hi]

@[simp] theorem reservedZero_eq_badDescriptor {zero : Bool} {i : Instr} :
    reservedZero zero i = .error .badDescriptor ↔ zero = false := by
  cases zero <;> cases hi : i.wellFormed <;> simp [reservedZero, inRange, hi]

@[simp] theorem reservedZero_eq_badOperand {zero : Bool} {i : Instr} :
    reservedZero zero i = .error .badOperand ↔ zero = true ∧ i.wellFormed = false := by
  cases zero <;> cases hi : i.wellFormed <;> simp [reservedZero, inRange, hi]

/-- An operation out of range is refused, whichever judgement comes first. -/
theorem reservedZero_of_not_wellFormed (zero : Bool) {i : Instr} (h : i.wellFormed = false) :
    ∃ e, reservedZero zero i = .error e := by
  cases zero
  · exact ⟨_, reservedZero_eq_badDescriptor.2 rfl⟩
  · exact ⟨_, reservedZero_eq_badOperand.2 ⟨rfl, h⟩⟩

/-! ### Decoder and encoder -/

/-- The encoder puts 0 where R55 wants it, so its word is judged by the operand range alone. -/
theorem decode_encode {i : Instr} (h : i.wellFormed = true) : decode (encode i) = .ok i := by
  cases i with
  | isReady => exact (decode_isReady_row 0 0).trans (reservedZero_eq_ok.2 ⟨rfl, h, rfl⟩)
  | writeFrame n => exact (decode_writeFrame_row 0 n).trans (reservedZero_eq_ok.2 ⟨rfl, h, rfl⟩)
  | writeCommand n => exact (decode_writeCommand_row 0 n).trans (reservedZero_eq_ok.2 ⟨rfl, h, rfl⟩)
  | readAck => exact (decode_readAck_row 0 0).trans (reservedZero_eq_ok.2 ⟨rfl, h, rfl⟩)
  | readResponse cap t => exact decode_readResponse_row t cap
  | wake => exact (decode_wake_row 0 0).trans (reservedZero_eq_ok.2 ⟨rfl, h, rfl⟩)

/-- A word of a row with both fields reserved decodes only where they are 0, that is, to the row's one word. -/
theorem wellFormed_encode_of_reserved {a16 : BitVec 16} {a8 opsel : BitVec 8} {i j : Instr}
    (hi : encode i = descriptorOf 0 0 opsel) (h : reservedZero (a8 == 0#8 && a16 == 0#16) i = .ok j) :
    j.wellFormed = true ∧ encode j = descriptorOf a16 a8 opsel := by
  obtain ⟨hzero, hwf, rfl⟩ := reservedZero_eq_ok.1 h
  simp only [Bool.and_eq_true, beq_iff_eq] at hzero
  obtain ⟨rfl, rfl⟩ := hzero
  exact ⟨hwf, hi⟩

/-- A word of a row with the upper field reserved decodes only where that field is 0. -/
theorem wellFormed_encode_of_reserved_upper {a16 : BitVec 16} {a8 opsel : BitVec 8} {i j : Instr}
    (hi : encode i = descriptorOf 0 a8 opsel) (h : reservedZero (a16 == 0#16) i = .ok j) :
    j.wellFormed = true ∧ encode j = descriptorOf a16 a8 opsel := by
  obtain ⟨hzero, hwf, rfl⟩ := reservedZero_eq_ok.1 h
  rw [beq_iff_eq] at hzero
  subst hzero
  exact ⟨hwf, hi⟩

/-- The encoder's words are the only ones that decode. -/
theorem wellFormed_encode_of_decode {w : Descriptor} {i : Instr} (h : decode w = .ok i) :
    i.wellFormed = true ∧ encode i = w := by
  cases opselRow w with
  | isReady a16 a8 => exact wellFormed_encode_of_reserved rfl ((decode_isReady_row a16 a8).symm.trans h)
  | writeFrame a16 a8 => exact wellFormed_encode_of_reserved_upper rfl ((decode_writeFrame_row a16 a8).symm.trans h)
  | writeCommand a16 a8 => exact wellFormed_encode_of_reserved_upper rfl ((decode_writeCommand_row a16 a8).symm.trans h)
  | readAck a16 a8 => exact wellFormed_encode_of_reserved rfl ((decode_readAck_row a16 a8).symm.trans h)
  | readResponse a16 a8 => rw [decode_readResponse_row] at h; cases h; exact ⟨rfl, rfl⟩
  | wake a16 a8 => exact wellFormed_encode_of_reserved rfl ((decode_wake_row a16 a8).symm.trans h)
  | reserved a16 a8 hop => rw [decode_reserved_row a16 a8 hop] at h; cases h

/-- The form of a word is bad by its `OPSEL`, or by a field its row wants to be 0. -/
theorem decode_eq_badDescriptor_iff (w : Descriptor) : decode w = .error .badDescriptor ↔
    opselOf w ∉ [0x11#8, 0x21#8, 0x22#8, 0x31#8, 0x32#8, 0x41#8] ∨
    (opselOf w ∈ [0x11#8, 0x31#8, 0x41#8] ∧ (a8Of w ≠ 0#8 ∨ a16Of w ≠ 0#16)) ∨
    (opselOf w ∈ [0x21#8, 0x22#8] ∧ a16Of w ≠ 0#16) := by
  cases opselRow w with
  | isReady | readAck | wake => simp [imp_iff_not_or]
  | writeFrame | writeCommand => simp
  | readResponse => simp
  | reserved a16 a8 h => simp only [decode_reserved_row a16 a8 h, opselOf_descriptorOf]; simp [h]

/-- Where the upper field is 0, the operand is out of range for a count of WRITE_FRAME or WRITE_COMMAND only. -/
theorem decode_eq_badOperand_iff {w : Descriptor} (hw : a16Of w = 0#16) : decode w = .error .badOperand ↔
    (opselOf w = 0x21#8 ∧ a8Of w = 255#8) ∨ (opselOf w = 0x22#8 ∧ (a8Of w = 0#8 ∨ a8Of w = 255#8)) := by
  cases opselRow w with
  | isReady | readAck | wake => simp [Instr.wellFormed]
  | writeFrame a16 a8 => rw [a16Of_descriptorOf] at hw; simp [Instr.wellFormed, hw]
  | writeCommand a16 a8 => rw [a16Of_descriptorOf] at hw; simp [Instr.wellFormed, hw, or_iff_not_imp_left]
  | readResponse => simp
  | reserved a16 a8 h =>
    have hrow := decode_reserved_row a16 a8 h
    simp only [List.mem_cons, List.not_mem_nil, or_false, not_or] at h
    simp [hrow, h]

end Sys2Proof

namespace Sys2Proof.Machine

/-! ### A word on the command interface (R52) -/

/-- A block with nothing on its command interface takes the caller's next move. -/
theorem step_of_idle_agenda {s : State} {m : CallerMove} {ms : List CallerMove} (hidle : s.phase = .idle)
    (hport : s.port = none) (hagenda : s.agenda = m :: ms) : step s = callerMove m { s with agenda := ms } := by
  simp only [step, advance, hidle, if_true, stepIdle, hport, hagenda]

theorem issueWord_of_decode {w : Descriptor} {i : Instr} (h : decode w = .ok i) (s : State) :
    issueWord w s = exec i s := by rw [issueWord, h]

theorem issueWord_of_decode_error {w : Descriptor} {e : DecodeError} (h : decode w = .error e) (s : State) :
    issueWord w s = .refused (refusalOfDecode e) := by rw [issueWord, h]

/-- A line's moves are its handover and the issue of its descriptor, where it has one. -/
theorem AsmLine.moves_of_descriptor {l : AsmLine} {w : Descriptor} (h : l.descriptor = some w) :
    l.moves = some (l.handover ++ [.issue w]) := by rw [AsmLine.moves, h]

/-- No count R56 admits is the 255 it refuses. -/
theorem ofNat_ne_255 {n : Nat} (h : n ≤ 254) : BitVec.ofNat 8 n ≠ 255#8 := by bv_omega

/-! ### WRITE_FRAME with no data (R56) -/

/-- WRITE_FRAME from an accepting state sends its envelope in one bracket. -/
theorem exec_writeFrame {s : State} {n : BitVec 8} (h : Accepting s) (hn : n ≠ 255#8) :
    exec (.writeFrame n) s = .next (((s.start (.writeFrame n)).sendFrame n.toNat).finish .okUnit) := by
  rw [exec, execWriteFrame, issue_of_accepting (i := .writeFrame n) h (by simpa [Instr.wellFormed] using hn) (Nat.zero_le _)]
  rfl

/-! ### The result word (R57) -/

/-- Only errors have a negative code. -/
theorem resultValue_neg_iff (r : Result) : resultValue r < 0 ↔ ∃ e, r = .err e := by
  cases r with
  | okUnit => simp [resultValue]
  | okBool b => cases b <;> simp [resultValue]
  | okCount n => simp [resultValue]
  | err e => cases e <;> simp [resultValue, errorCode]

/-- The values of the results an operation can have; no count is above 253 (R49). -/
theorem resultValue_range {r : Result} (h : ∀ n, r = .okCount n → n ≤ 253) :
    -4 ≤ resultValue r ∧ resultValue r ≤ 253 := by
  cases r with
  | okUnit => decide
  | okBool b => cases b <;> decide
  | okCount n => have := h n rfl; simp only [resultValue]; omega
  | err e => cases e <;> decide

/-- The signed reading of a result word gives its value back. -/
theorem toInt_resultWord {r : Result} (h : ∀ n, r = .okCount n → n ≤ 253) : (resultWord r).toInt = resultValue r := by
  obtain ⟨hlo, hhi⟩ := resultValue_range h
  exact BitVec.toInt_ofInt_eq_self (by decide) (by omega) (by omega)

/-! ### READ_RESPONSE once the device is ready -/

/-- `v` is the state in which READ_RESPONSE, answered in `s` at query `k + 1`, opens its read section. -/
structure OpensReadSection (s : State) (k : Nat) (v : State) : Prop where
  kept : CallerSideKept s v
  pendingOp : v.pendingOp = s.pendingOp
  rbuf : v.rbuf = s.rbuf
  peer : v.peer = s.peer.drop (k + 1)
  draws : v.draws = s.draws + (k + 1)
  trace : v.trace = s.trace ++ pollUntilReady s k

/-- The draws of the read section are those after the poll's. -/
theorem OpensReadSection.upcoming {s v : State} {k : Nat} (h : OpensReadSection s k v) (j : Nat) :
    v.upcoming j = s.upcoming (k + 1 + j) := State.upcoming_of_drop h.peer h.draws j

theorem OpensReadSection.answers {s v : State} {k : Nat} (h : OpensReadSection s k v) (i n : Nat) :
    v.answers i n = s.answers (k + 1 + i) n := State.answers_of_drop h.peer h.draws i n

theorem OpensReadSection.headerPasses {s v : State} {k : Nat} {p : Byte} (h : OpensReadSection s k v)
    (hp : HeaderPasses s (k + 1) p) : HeaderPasses v 0 p := by
  simpa only [HeaderPasses, h.upcoming, Nat.zero_add, Nat.add_zero] using hp

/-- A poll loop that finds the device ready within its step goes on to the read section (R81 steps 1 and 2). -/
theorem State.awaitResponse_ready {s : State} {cap t k e : Nat} (he : s.elapsed = some e) (hr : ReadyAtQuery s k)
    (hk : k < queriesPerStep t) (hb : t = 0 ∨ e + k ≤ t) :
    s.awaitResponse cap t e = ((s.afterReady k).setElapsed (e + k)).readSection cap := by
  rw [State.awaitResponse, State.pollBudget_ready hr hk hb he, State.afterBudget]

theorem WithinBudget.bounds {t k : Nat} (h : WithinBudget t k) : k < queriesPerStep t ∧ (t = 0 ∨ k ≤ t) := by
  by_cases ht : t = 0
  · simp only [WithinBudget, ht, if_true] at h
    simp [queriesPerStep, ht, h]
  · simp only [WithinBudget, ht, if_false] at h
    simp only [queriesPerStep, ht, if_false]
    omega

/-- An answered READ_RESPONSE, at its issue or in a later step of its wait, is its read section. -/
theorem Answered.readSection {s : State} {cap : BitVec 8} {t : BitVec 16} {k : Nat} (h : Answered s cap t k) :
    ∃ v, OpensReadSection s k v ∧ responding s cap t = v.readSection cap.toNat := by
  obtain ⟨hstate, hready, hwithin⟩ := h
  obtain ⟨hk, hbudget⟩ := hwithin.bounds
  rcases hstate with ⟨haccepting, hcap⟩ | ⟨⟨hpoll, hport, hop, helapsed⟩, rfl⟩
  · refine ⟨(((s.start (.readResponse cap t)).setElapsed 0).afterReady k).setElapsed (0 + k),
      ⟨⟨rfl, rfl, rfl, rfl, rfl⟩, rfl, rfl, rfl, rfl, by simp [pollUntilReady]⟩, ?_⟩
    rw [responding, if_pos haccepting.1, exec_readResponse haccepting hcap]
    exact State.awaitResponse_ready rfl hready hk (by omega)
  · obtain ⟨e, he⟩ := Option.isSome_iff_exists.1 helapsed
    refine ⟨(s.afterReady k).setElapsed (e + k),
      ⟨⟨rfl, rfl, rfl, rfl, rfl⟩, rfl, rfl, rfl, rfl, by simp [pollUntilReady]⟩, ?_⟩
    rw [responding, if_neg (by rw [hpoll]; decide), step_waiting hpoll hport hop he]
    exact State.awaitResponse_ready he hready hk (.inl rfl)

/-- A read section whose header passes every check goes on to its seventh byte and step 6 (R84 to R87). -/
theorem State.readSection_of_headerPasses {v : State} {p : Byte} (cap : Nat) (hp : v.pendingOp = some p)
    (h : HeaderPasses v 0 p) :
    v.readSection cap = v.afterCode.checkCapacity cap (v.upcoming 3) (0xD5#8 + (p + 1#8)) := by
  obtain ⟨h0, h1, h2, hlen, htfi, hcode⟩ := h
  rw [State.readSection_eq, if_pos h0, if_pos h1, if_pos h2, if_pos hlen, if_pos htfi, hp]
  simp only [Nat.zero_add] at hcode htfi
  simp only [hcode, if_true, htfi]

/-- Step 7 on (R89 to R92): the checksum decides the result, `EFF` is kept, and no byte is stored where `eff` is 0. -/
theorem State.takePayload_leaves (eff : Nat) (seed : Byte) (s : State) :
    ∃ u, s.takePayload eff seed = .next u ∧ u.eff = s.eff ∧
      u.result = some (if seed + byteSum (s.answers 0 eff) + s.upcoming eff = 0#8 then .okCount eff
        else .err .invalidFrame) ∧
      (eff = 0 → u.rbuf = s.rbuf) := by
  have hstore (h : eff = 0) : Memory.store s.rbuf 0 (s.answers 0 eff) = s.rbuf := by
    rw [h, State.answers_zero, Memory.store]
  rw [State.takePayload_eq]
  by_cases hsum : seed + byteSum (s.answers 0 eff) + s.upcoming eff = 0#8
  · rw [if_pos hsum, if_pos hsum]; exact ⟨_, rfl, rfl, rfl, hstore⟩
  · rw [if_neg hsum, if_neg hsum]; exact ⟨_, rfl, rfl, rfl, hstore⟩

/-- Step 6 on (R87 to R92): `EFF` is written, the capacity and then the checksum decide the result, and no byte is stored
where `EFF` is 0. -/
theorem State.checkCapacity_leaves (cap : Nat) (len seed : Byte) (s : State) :
    ∃ u, s.checkCapacity cap len seed = .next u ∧ u.eff = some (effectiveLength len) ∧
      u.result = some (if cap < effectiveLength len then .err .noSpace
        else if seed + byteSum (s.answers 0 (effectiveLength len)) + s.upcoming (effectiveLength len) = 0#8 then
          .okCount (effectiveLength len)
        else .err .invalidFrame) ∧
      (effectiveLength len = 0 → u.rbuf = s.rbuf) := by
  rw [State.checkCapacity]
  split
  · refine ⟨_, rfl, ?_⟩
    rw [State.drainFrame_eq]
    exact ⟨rfl, rfl, fun _ => rfl⟩
  · exact State.takePayload_leaves _ seed (s.setEff _)

@[simp] theorem State.afterCode_rbuf (v : State) : v.afterCode.rbuf = v.rbuf := rfl

@[simp] theorem State.afterCode_upcoming (v : State) (j : Nat) : v.afterCode.upcoming j = v.upcoming (7 + j) := by
  simp [State.afterCode]

@[simp] theorem State.afterCode_answers (v : State) (i n : Nat) : v.afterCode.answers i n = v.answers (7 + i) n := by
  simp [State.afterCode]

/-! ### The statements -/

/-- Settles O1: each row's word has 0 in the fields R55 reserves. -/
theorem decodeInvertsEncode : Obligations.DecodeInvertsEncode := fun _ h => decode_encode h

/-- Settles O2, by the row of the opcode table the word is of. -/
theorem decodedWordIsItsEncoding : Obligations.DecodedWordIsItsEncoding := fun _ _ h => wellFormed_encode_of_decode h

/-- Settles O3, by the row of the opcode table the word is of. -/
theorem badDescriptorExactly : Obligations.BadDescriptorExactly := decode_eq_badDescriptor_iff

/-- Settles O4: each row's range; with `N = 0` the envelope holds no data byte. -/
theorem badOperandExactly : Obligations.BadOperandExactly := by
  refine ⟨fun w hw => decode_eq_badOperand_iff hw, fun n b hn => ?_, fun n b hn => ?_, fun n hn => ?_, fun n h0 hn => ?_,
    fun cap t => decode_readResponse_row t cap, fun s hs => ?_⟩
  · subst hn
    rw [show b ++ 255#8 ++ 0x21#8 = descriptorOf b 255#8 0x21#8 from rfl, decode_writeFrame_row]
    exact reservedZero_of_not_wellFormed _ rfl
  · rw [show b ++ n ++ 0x22#8 = descriptorOf b n 0x22#8 from rfl, decode_writeCommand_row]
    exact reservedZero_of_not_wellFormed _ (by rcases hn with rfl | rfl <;> rfl)
  · exact decode_encode (i := .writeFrame n) (by simp [Instr.wellFormed, hn])
  · exact decode_encode (i := .writeCommand n) (by simp [Instr.wellFormed, h0, hn])
  · refine ⟨_, exec_writeFrame hs (by decide), ?_⟩
    rw [State.finish_trace, State.sendFrame_eq]
    rfl

/-- Settles O6: a line's descriptor is the encoding of a well-formed operation. -/
theorem linesIssueTheirOperation : Obligations.LinesIssueTheirOperation := by
  refine ⟨fun bytes hlen => ?_, fun bytes hpos hlen => ?_, fun cap budget hcap hbudget => ?_⟩
  · exact ⟨_, AsmLine.moves_of_descriptor (if_pos (by omega)),
      decode_encode (by simpa [Instr.wellFormed] using ofNat_ne_255 hlen)⟩
  · have h0 : BitVec.ofNat 8 bytes.length ≠ 0#8 := by bv_omega
    exact ⟨_, AsmLine.moves_of_descriptor (if_pos (by omega)),
      decode_encode (by simpa [Instr.wellFormed] using ⟨h0, ofNat_ne_255 hlen⟩)⟩
  · exact ⟨_, AsmLine.moves_of_descriptor (if_pos ⟨by omega, by omega⟩), decode_encode rfl⟩

/-- Settles O35: the device's answer opens the read section, its header passes, and step 6 decides. -/
theorem effectiveLengthAgainstCapacity : Obligations.EffectiveLengthAgainstCapacity := by
  rintro s cap t k p eff hanswered hp hheader rfl
  obtain ⟨v, hopens, hv⟩ := hanswered.readSection
  have hlen : v.upcoming 3 = s.upcoming (k + 4) := hopens.upcoming 3
  have hnext (j : Nat) : v.afterCode.upcoming j = s.upcoming (k + 8 + j) := by
    rw [State.afterCode_upcoming, hopens.upcoming, ← Nat.add_assoc]
  have hpayload (n : Nat) : v.afterCode.answers 0 n = s.answers (k + 8) n := by
    rw [State.afterCode_answers, hopens.answers]
  have hbyte := (s.upcoming (k + 4)).isLt
  rw [hv, State.readSection_of_headerPasses _ (hopens.pendingOp.trans hp) (hopens.headerPasses hheader), hlen]
  obtain ⟨u, hu, heff, hresult, hrbuf⟩ :=
    State.checkCapacity_leaves cap.toNat (s.upcoming (k + 4)) (0xD5#8 + (p + 1#8)) v.afterCode
  rw [hnext, hpayload] at hresult
  exact ⟨u, hu, heff, by omega, hresult, fun hshort => (hrbuf (by rw [effectiveLength]; omega)).trans hopens.rbuf⟩

/-- Settles O5: ten words of 95_test_vectors.md 2.8, evaluated. -/
theorem specWordsDecode : Obligations.SpecWordsDecode := by
  unfold Obligations.SpecWordsDecode
  decide

/-- Settles O7: an idle block takes the move, and the issue runs what its word decodes to. -/
theorem stepRunsDecodedOperation : Obligations.StepRunsDecodedOperation := by
  intro s w i hidle hw
  refine ⟨fun hport => ?_, fun ms hport hagenda => ?_⟩
  · exact (step_of_idle_port hidle hport).trans (issueWord_of_decode hw _)
  · exact (step_of_idle_agenda hidle hport hagenda).trans (issueWord_of_decode hw _)

/-- Settles O8: an idle block takes the move, and the issue answers the decoder's reason. -/
theorem stepRefusesUndecodable : Obligations.StepRefusesUndecodable := by
  intro s w hidle hport
  refine ⟨fun hw => ?_, fun hw => ?_⟩
  all_goals exact (step_of_idle_port hidle hport).trans (issueWord_of_decode_error hw _)

/-- Settles O43: every code fits the signed 16-bit word, which therefore keeps its sign. -/
theorem resultWords : Obligations.ResultWords := by
  refine ⟨by decide, by decide, by decide, fun n hn => ⟨?_, ?_⟩, by decide, by decide, by decide, by decide, fun r n hr => ?_⟩
  · rw [resultWord, resultValue, BitVec.ofInt_natCast, BitVec.toNat_ofNat, Nat.mod_eq_of_lt (by omega)]
  · exact toInt_resultWord fun m hm => by cases hm; exact hn
  · have hcount : ∀ m, r = .okCount m → m ≤ 253 := by
      rintro m rfl
      rcases hr with ⟨h, hn⟩ | ⟨b, h⟩ | h | ⟨e, h⟩ <;> cases h
      exact hn
    rw [toInt_resultWord hcount, resultValue_neg_iff]

end Sys2Proof.Machine
end

section
/-! PROOFS. IS_READY and the waits of READ_RESPONSE (spec/40_ready_poller.md): the state each of their outcomes leaves, the
exit table of the read section, and the steps of an unbounded wait. -/

namespace Sys2Proof.Machine

/-! ### IS_READY -/

/-- IS_READY from an accepting state: one status query, and bit 0 of its byte as the result (R61). -/
theorem exec_isReady {s : State} (h : Accepting s) :
    exec .isReady s = .next
      { s.clearWorking with
        phase := .idle, sel := .released, op := none, peer := s.peer.tail, draws := s.draws + 1
        result := some (.okBool ((s.upcoming 0).getLsbD 0)), trace := s.trace ++ statusBracket (s.upcoming 0) } := by
  rw [exec, execIsReady, issue_of_accepting (i := .isReady) h rfl (Nat.zero_le _), State.statusQuery_snd]
  rfl

/-! ### One poll loop of READ_RESPONSE -/

/-- A bounded wait that finds the device not ready `T + 1` times is a Timeout (R64, R82). -/
theorem State.awaitResponse_exhausted {s : State} {cap t : Nat} (ht : t ≠ 0) (h : NotReadyFor s 0 (t + 1)) :
    s.awaitResponse cap t 0 = .next (((s.afterRounds (t + 1)).setElapsed (t + 1)).raise .timeout) := by
  rw [State.awaitResponse, queriesPerStep, if_neg ht,
    State.pollBudget_exhausted h (Nat.zero_add t).symm (Nat.pos_of_ne_zero ht) (Nat.lt_succ_self t), State.afterBudget,
    Nat.zero_add]

/-- `s` at rest in its poll loop after a not-ready round, `ELAPSED` having been `e` (R64). -/
def State.rested (e : Nat) (s : State) : State := ((s.afterRounds 1).setElapsed (e + 1)).setPhase .poll

/-- An unbounded wait that finds the device not ready rests in its poll loop (R124). -/
theorem State.awaitResponse_pending {s : State} {cap e : Nat} (h : (s.upcoming 0).getLsbD 0 = false) :
    s.awaitResponse cap 0 e = .next (s.rested e) := by
  rw [State.awaitResponse, queriesPerStep, if_pos rfl, State.pollBudget_pending h, State.afterBudget, State.rested]

theorem State.rested_eq (e : Nat) (s : State) :
    s.rested e =
      { s with
        phase := .poll, sel := .released, elapsed := some (e + 1), peer := s.peer.tail, draws := s.draws + 1
        trace := s.trace ++ statusBracket (s.upcoming 0) ++ [.sleep 1] } := by
  apply State.ext <;> simp [State.rested, State.answers_one, notReadyRounds]

theorem State.rested_upcoming (e : Nat) (s : State) (j : Nat) : (s.rested e).upcoming j = s.upcoming (1 + j) :=
  State.afterRounds_upcoming s 1 j

/-- A wait's next round after one it rested in. -/
theorem State.rested_afterRounds (e k : Nat) (s : State) :
    (s.rested e).afterRounds k = (s.afterRounds (k + 1)).setElapsed (e + 1) := by
  rw [← State.afterRounds_succ]; rfl

theorem State.rested_afterReady (e k : Nat) (s : State) :
    (s.rested e).afterReady k = (s.afterReady (k + 1)).setElapsed (e + 1) := by
  rw [← State.afterReady_succ]; rfl

/-! ### The steps of an unbounded wait -/

/-- A run of one step is the step. -/
theorem run_one (M : Host.Core) (s : M.State) : M.run 1 s = M.step s := by
  rw [Host.Core.run]
  cases M.step s <;> rfl

/-- The step from `s` goes on in state `v` with the poll loop of a READ_RESPONSE with an unbounded budget, `ELAPSED` at `e`,
and the caller presents nothing more. -/
structure StepPolls (cap : BitVec 8) (s v : State) (e : Nat) : Prop where
  awaits : step s = v.awaitResponse cap.toNat 0 e
  elapsed : v.elapsed = some e
  op : v.op = some (.readResponse cap 0#16)
  port : v.port = none

/-- A READ_RESPONSE with an unbounded budget, taken from the command interface and about to poll. -/
def State.waitBegun (cap : BitVec 8) (s : State) : State :=
  (({ s with port := none } : State).start (.readResponse cap 0#16)).setElapsed 0

/-- The issue of the operation is the first of these steps. -/
theorem StepPolls.of_issue {s : State} {cap : BitVec 8} {w : Descriptor} (h : Accepting s) (hcap : cap.toNat ≤ s.rbufSize)
    (hport : s.port = some (.issue w)) (hw : decode w = .ok (.readResponse cap 0#16)) :
    StepPolls cap s (s.waitBegun cap) 0 where
  awaits := by
    rw [step_of_idle_port h.1 hport, callerMove, issueWord_of_decode hw]
    exact exec_readResponse (s := { s with port := none }) h hcap
  elapsed := rfl
  op := rfl
  port := rfl

/-- Every later step of the wait is one. -/
theorem StepPolls.of_waiting {s : State} {cap : BitVec 8} {e : Nat} (hphase : s.phase = .poll) (hport : s.port = none)
    (hop : s.op = some (.readResponse cap 0#16)) (he : s.elapsed = some e) : StepPolls cap s s e :=
  ⟨step_waiting hphase hport hop he, he, hop, hport⟩

/-- A not-ready answer takes one step, and the next one goes on from where the operation rests. -/
theorem StepPolls.next {cap : BitVec 8} {s v : State} {e : Nat} (h : StepPolls cap s v e)
    (hv : (v.upcoming 0).getLsbD 0 = false) :
    step s = .next (v.rested e) ∧ StepPolls cap (v.rested e) (v.rested e) (e + 1) :=
  ⟨h.awaits.trans (State.awaitResponse_pending hv), .of_waiting rfl h.port h.op rfl⟩

/-- `k + 1` not-ready answers take `k + 1` steps and leave the wait in its poll loop (R124). -/
theorem StepPolls.run_notReady {cap : BitVec 8} {k : Nat} {s v : State} {e : Nat} (h : StepPolls cap s v e)
    (hv : NotReadyFor v 0 (k + 1)) :
    core.run (k + 1) s = .next (((v.afterRounds (k + 1)).setElapsed (e + (k + 1))).setPhase .poll) := by
  induction k generalizing s v e with
  | zero =>
    obtain ⟨hstep, -⟩ := h.next hv.head
    exact core_run_next hstep
  | succ k ih =>
    obtain ⟨hstep, hnext⟩ := h.next hv.head
    rw [core_run_next hstep, ih hnext (hv.round (State.rested_upcoming e v)), State.rested_afterRounds,
      State.setElapsed_setElapsed, Nat.add_assoc, Nat.add_comm 1]

/-- Where the first ready answer comes at query `k + 1`, the wait's step `k + 1` is the read section's (R64, R81). -/
theorem StepPolls.run_ready {cap : BitVec 8} {k : Nat} {s v : State} {e : Nat} (h : StepPolls cap s v e)
    (hv : ReadyAtQuery v k) :
    core.run (k + 1) s = ((v.afterReady k).setElapsed (e + k)).readSection cap.toNat := by
  induction k generalizing s v e with
  | zero =>
    have hread := State.awaitResponse_ready (cap := cap.toNat) h.elapsed hv (by decide : 0 < queriesPerStep 0) (.inl rfl)
    exact (run_one core s).trans (h.awaits.trans hread)
  | succ k ih =>
    obtain ⟨hstep, hnext⟩ := h.next hv.1.head
    rw [core_run_next hstep, ih hnext (hv.round (State.rested_upcoming e v)), State.rested_afterReady,
      State.setElapsed_setElapsed, Nat.add_assoc, Nat.add_comm 1]

/-! ### The exit table of the read section -/

/-- `r` is `v` in its read section after `m` reads, RBUF not written. -/
structure ReadsFrom (m : Nat) (v r : State) : Prop where
  kept : CallerSideKept v r
  pendingOp : r.pendingOp = v.pendingOp
  rbuf : r.rbuf = v.rbuf
  peer : r.peer = v.peer.drop m
  draws : r.draws = v.draws + m
  trace : r.trace = v.trace ++ openReadSection (v.answers 0 m)

/-- `o` is what a read section opened at `v` answers where it takes the exit `x`: a next state, or the fault where the exit
has no result. -/
def ExitsBy (o : Host.Outcome State Fault Refusal) (v : State) (x : ReadExit) : Prop :=
  ∃ u, (match x.verdict with
      | some _ => o = .next u
      | none => o = .fault (.noPendingOpcode u)) ∧ LeftByReadSection v x u

/-- A check of the read section and the same check of the table. -/
theorem ExitsBy.ite {c : Prop} [Decidable c] {o o' : Host.Outcome State Fault Refusal} {v : State} {x x' : ReadExit}
    (h : c → ExitsBy o v x) (h' : ¬ c → ExitsBy o' v x') :
    ExitsBy (if c then o else o') v (if c then x else x') := by
  split
  · exact h ‹_›
  · exact h' ‹_›

/-- An exit with a result, from the fields of the state it leaves. -/
theorem ExitsBy.of_ended {v u : State} {m n : Nat} {r : Result} (hkept : CallerSideKept v u)
    (hpending : u.pendingOp = v.pendingOp) (hpeer : u.peer = v.peer.drop m) (hdraws : u.draws = v.draws + m)
    (hrbuf : ∀ a, Memory.read u.rbuf a = if a < n then v.upcoming (7 + a) else Memory.read v.rbuf a)
    (hend : u.result = some r ∧ u.phase = .idle ∧ u.sel = .released)
    (htrace : u.trace = v.trace ++ openReadSection (v.answers 0 m) ++ [.rel]) :
    ExitsBy (.next u) v ⟨m, n, some r⟩ := by
  obtain ⟨hretries, hcmd, hsize, hport, hagenda⟩ := hkept
  obtain ⟨hresult, hphase, hsel⟩ := hend
  exact ⟨u, rfl, hdraws, State.upcoming_of_drop hpeer hdraws, hrbuf, hpending, hretries, hcmd, hsize, hport, hagenda,
    hresult, hphase, hsel, htrace⟩

/-- The InvalidFrame exits before the payload (R84 to R86). -/
theorem ReadsFrom.exitsBy_badFrame {m : Nat} {v r : State} (h : ReadsFrom m v r) :
    ExitsBy r.badFrame v ⟨m, 0, some (.err .invalidFrame)⟩ :=
  .of_ended ⟨h.kept.ackRetries, h.kept.cmd, h.kept.rbufSize, h.kept.port, h.kept.agenda⟩ h.pendingOp h.peer h.draws
    (fun a => by simp [h.rbuf]) ⟨rfl, rfl, rfl⟩ (by simp [h.trace])

theorem State.inRead_readsFrom (m : Nat) (v : State) : ReadsFrom m v (v.inRead m) :=
  ⟨⟨rfl, rfl, rfl, rfl, rfl⟩, rfl, rfl, rfl, rfl, rfl⟩

theorem State.afterLength_readsFrom (v : State) : ReadsFrom 5 v v.afterLength :=
  ⟨⟨rfl, rfl, rfl, rfl, rfl⟩, rfl, rfl, rfl, rfl, rfl⟩

theorem State.afterDirection_readsFrom (v : State) : ReadsFrom 6 v v.afterDirection :=
  ⟨⟨rfl, rfl, rfl, rfl, rfl⟩, rfl, rfl, rfl, rfl, rfl⟩

theorem State.afterCode_readsFrom (v : State) : ReadsFrom 7 v v.afterCode :=
  ⟨⟨rfl, rfl, rfl, rfl, rfl⟩, rfl, rfl, rfl, rfl, rfl⟩

/-- The fault without a pending opcode (R86, R104): seven reads, select asserted. -/
theorem State.exitsBy_fault (v : State) :
    ExitsBy (.fault (.noPendingOpcode v.afterCode)) v ⟨7, 0, none⟩ :=
  have h := v.afterCode_readsFrom
  ⟨_, rfl, h.draws, State.upcoming_of_drop h.peer h.draws, fun a => by simp, rfl, rfl, rfl, rfl, rfl, rfl, rfl, h.trace⟩

/-- The bytes of `n` draws stored from index 0 on. -/
theorem Memory.read_store_answers {m : Memory} (h : Memory.wf m = true) (v : State) (i n a : Nat) :
    Memory.read (Memory.store m 0 (v.answers i n)) a = if a < n then v.upcoming (i + a) else Memory.read m a := by
  rw [Memory.read_store _ h]
  by_cases ha : a < n <;> simp [ha, State.answers]

theorem ReadsFrom.upcoming {m : Nat} {v r : State} (h : ReadsFrom m v r) (j : Nat) : r.upcoming j = v.upcoming (m + j) :=
  State.upcoming_of_drop h.peer h.draws j

theorem ReadsFrom.answers {m : Nat} {v r : State} (h : ReadsFrom m v r) (i n : Nat) :
    r.answers i n = v.answers (m + i) n := State.answers_of_drop h.peer h.draws i n

/-- An exit `n` reads after the first `m`. -/
theorem ReadsFrom.exitsBy_next {m n reads stored : Nat} {v r u : State} {res : Result} (h : ReadsFrom m v r)
    (hkept : CallerSideKept r u) (hpending : u.pendingOp = r.pendingOp) (hpeer : u.peer = r.peer.drop n)
    (hdraws : u.draws = r.draws + n)
    (hrbuf : ∀ a, Memory.read u.rbuf a = if a < stored then v.upcoming (7 + a) else Memory.read r.rbuf a)
    (hend : u.result = some res ∧ u.phase = .idle ∧ u.sel = .released)
    (htrace : u.trace = r.trace ++ (r.answers 0 n).map .rx ++ [.rel]) (hreads : reads = m + n) :
    ExitsBy (.next u) v ⟨reads, stored, some res⟩ := by
  subst hreads
  refine .of_ended (h.kept.trans hkept) (hpending.trans h.pendingOp) ?_ ?_ (h.rbuf ▸ hrbuf) hend ?_
  · rw [hpeer, h.peer, List.drop_drop]
  · rw [hdraws, h.draws, Nat.add_assoc]
  · rw [htrace, h.trace, h.answers, State.answers_append]
    simp [openReadSection]

/-- Steps 7 to 10 (R89 to R92): the payload is stored whatever its checksum says. -/
theorem ReadsFrom.exitsBy_takePayload {v r : State} (h : ReadsFrom 7 v r) (hwf : Memory.wf v.rbuf = true) (eff : Nat)
    (seed : Byte) :
    ExitsBy (r.takePayload eff seed) v
      (if seed + byteSum (v.answers 7 eff) + v.upcoming (7 + eff) = 0#8 then ⟨eff + 9, eff, some (.okCount eff)⟩
       else ⟨eff + 8, eff, some (.err .invalidFrame)⟩) := by
  have hstored (a : Nat) : Memory.read (Memory.store r.rbuf 0 (r.answers 0 eff)) a =
      if a < eff then v.upcoming (7 + a) else Memory.read r.rbuf a := by
    rw [Memory.read_store_answers (h.rbuf ▸ hwf), h.upcoming, Nat.zero_add]
  have hsum : v.answers 7 eff = r.answers 0 eff := (h.answers 0 eff).symm
  rw [State.takePayload_eq, hsum, ← h.upcoming]
  refine .ite (fun _ => ?_) fun _ => ?_
  all_goals exact h.exitsBy_next ⟨rfl, rfl, rfl, rfl, rfl⟩ rfl rfl rfl hstored ⟨rfl, rfl, rfl⟩ rfl (by omega)

/-- Step 6 on (R87 to R92): the capacity, then the payload. -/
theorem State.exitsBy_checkCapacity {v : State} (hwf : Memory.wf v.rbuf = true) (cap : Nat) (len seed : Byte) :
    ExitsBy (v.afterCode.checkCapacity cap len seed) v
      (if cap < len.toNat - 2 then ⟨len.toNat - 2 + 9, 0, some (.err .noSpace)⟩
       else if seed + byteSum (v.answers 7 (len.toNat - 2)) + v.upcoming (7 + (len.toNat - 2)) = 0#8 then
         ⟨len.toNat - 2 + 9, len.toNat - 2, some (.okCount (len.toNat - 2))⟩
       else ⟨len.toNat - 2 + 8, len.toNat - 2, some (.err .invalidFrame)⟩) := by
  have h : ReadsFrom 7 v (v.afterCode.setEff (effectiveLength len)) := ⟨⟨rfl, rfl, rfl, rfl, rfl⟩, rfl, rfl, rfl, rfl, rfl⟩
  rw [State.checkCapacity]
  refine .ite (fun _ => ?_) fun _ => h.exitsBy_takePayload hwf _ seed
  rw [State.drainFrame_eq]
  exact h.exitsBy_next ⟨rfl, rfl, rfl, rfl, rfl⟩ rfl rfl rfl (fun _ => rfl) ⟨rfl, rfl, rfl⟩ rfl (Nat.add_comm _ 7)

/-- The read section takes the exit of the table (R97), its checks in the order of R106. -/
theorem State.readSection_exitsBy {v : State} (hwf : Memory.wf v.rbuf = true) (cap : Nat) :
    ExitsBy (v.readSection cap) v (readExit v.pendingOp cap v.upcoming) := by
  rw [State.readSection_eq]
  simp only [readExit, ne_eq, ite_not]
  refine .ite (fun _ => .ite (fun _ => .ite (fun _ => .ite (fun _ => .ite (fun htfi => ?_) fun _ => ?_) fun _ => ?_)
    fun _ => ?_) fun _ => ?_) fun _ => ?_
  · cases v.pendingOp with
    | none => exact v.exitsBy_fault
    | some p =>
      refine .ite (fun _ => ?_) fun _ => v.afterCode_readsFrom.exitsBy_badFrame
      rw [htfi]
      exact State.exitsBy_checkCapacity hwf cap _ _
  · exact v.afterDirection_readsFrom.exitsBy_badFrame
  · exact v.afterLength_readsFrom.exitsBy_badFrame
  · exact (v.inRead_readsFrom 3).exitsBy_badFrame
  · exact (v.inRead_readsFrom 2).exitsBy_badFrame
  · exact (v.inRead_readsFrom 1).exitsBy_badFrame

/-- An exit speaks only of what these fields of the state its read section opened in hold. -/
theorem ExitsBy.congr {o : Host.Outcome State Fault Refusal} {v w : State} {x : ReadExit} (h : ExitsBy o v x)
    (hkept : CallerSideKept w v) (hpending : v.pendingOp = w.pendingOp) (hrbuf : v.rbuf = w.rbuf) (hpeer : v.peer = w.peer)
    (hdraws : v.draws = w.draws) (htrace : v.trace = w.trace) : ExitsBy o w x := by
  obtain ⟨u, ho, hleft⟩ := h
  obtain ⟨hretries, hcmd, hsize, hport, hagenda⟩ := hkept
  have hup (j : Nat) : v.upcoming j = w.upcoming j := by simp only [State.upcoming, hpeer, hdraws]
  refine ⟨u, ho, ?_⟩
  simpa only [LeftByReadSection, State.answers, hup, hretries, hcmd, hsize, hport, hagenda, hpending, hrbuf, hdraws,
    htrace] using hleft

/-- Once the device is ready, the read section's exit by the table, seen from the state in which the poll loop began. -/
theorem OpensReadSection.exitsBy {s v : State} {k : Nat} (h : OpensReadSection s k v) (hwf : Memory.wf s.rbuf = true)
    (cap : Nat) :
    ExitsBy (v.readSection cap)
      { s with peer := s.peer.drop (k + 1), draws := s.draws + (k + 1), trace := s.trace ++ pollUntilReady s k }
      (readExit s.pendingOp cap fun j => s.upcoming (k + 1 + j)) := by
  have hexit := State.readSection_exitsBy (h.rbuf ▸ hwf) cap
  rw [h.pendingOp, funext h.upcoming] at hexit
  have ⟨hretries, hcmd, hsize, hport, hagenda⟩ := h.kept
  exact hexit.congr ⟨hretries, hcmd, hsize, hport, hagenda⟩ h.pendingOp h.rbuf h.peer h.draws h.trace

/-! ### The statements -/

/-- Settles O14: the byte reaches the result by its bit 0 alone. -/
theorem statusBitsSevenToOneIgnored : Obligations.StatusBitsSevenToOneIgnored := by
  intro s t b b' rest hbit h
  obtain ⟨haccepting, -⟩ := exec_next_accepting h
  have hresult : (({ s with peer := b :: rest } : State).upcoming 0).getLsbD 0 =
    (({ s with peer := b' :: rest } : State).upcoming 0).getLsbD 0 := hbit
  rw [exec_isReady haccepting, hresult] at h
  cases h
  exact exec_isReady (s := { s with peer := b' :: rest }) haccepting

/-- Settles O26: the poll loop uses up its budget, and Timeout is raised. -/
theorem readResponseTimesOut : Obligations.ReadResponseTimesOut := by
  intro s cap t haccepting hcap ht hnotReady
  have ht0 : t.toNat ≠ 0 := fun h => ht (BitVec.eq_of_toNat_eq h)
  rw [exec_readResponse haccepting hcap]
  exact State.awaitResponse_exhausted ht0 hnotReady

/-- Settles O29: at the issue and later, a not-ready answer rests the wait. -/
theorem unboundedWaitRests : Obligations.UnboundedWaitRests := by
  refine ⟨fun s cap haccepting hcap hbit => ?_, fun s cap e hphase hport hop he hbit => ?_⟩
  · have hrests := State.awaitResponse_pending (s := (s.start (.readResponse cap 0#16)).setElapsed 0) (cap := cap.toNat)
      (e := 0) hbit
    rw [State.rested_eq] at hrests
    exact (exec_readResponse haccepting hcap).trans hrests
  · obtain ⟨hstep, -⟩ := (StepPolls.of_waiting hphase hport hop he).next hbit
    rw [hstep, State.rested_eq, ← hphase]

/-- Settles O30: each of the `k + 1` steps rests in the poll loop. -/
theorem unboundedWaitNeverEnds : Obligations.UnboundedWaitNeverEnds := by
  intro k s cap w haccepting hcap hport hw hnotReady
  exact ⟨_, (StepPolls.of_issue haccepting hcap hport hw).run_notReady hnotReady, rfl, rfl, by simp, rfl⟩

/-- Settles O28: after `k` steps of the wait the read section runs, and takes the table's exit. -/
theorem unboundedWaitEndsByExitTable : Obligations.UnboundedWaitEndsByExitTable := by
  intro k s cap w haccepting hcap hport hw hready hwf
  rw [(StepPolls.of_issue haccepting hcap hport hw).run_ready hready]
  have hopens : OpensReadSection { s with port := none } k
      (((s.waitBegun cap).afterReady k).setElapsed (0 + k)) :=
    ⟨⟨rfl, rfl, rfl, rfl, rfl⟩, rfl, rfl, rfl, rfl, List.append_assoc _ _ _⟩
  exact hopens.exitsBy hwf cap.toNat

/-- Settles O13, from the state IS_READY leaves. -/
theorem isReadyResult : Obligations.IsReadyResult :=
  ⟨by decide, fun _ h => ⟨_, exec_isReady h, rfl, rfl, rfl, rfl, rfl⟩⟩

end Sys2Proof.Machine
end

section
/-! PROOFS. WRITE_FRAME (spec/41_frame_encode.md): where the parts of the command envelope stand in the bytes sent, and the
operation's result, checksums and corner cases. -/

namespace Sys2Proof.Machine

/-! ### The data bytes (R25) -/

@[simp] theorem length_dataBytes (s : State) (n : Nat) : (dataBytes s n).length = n := by simp [dataBytes]

theorem dataBytes_getElem? {s : State} {n i : Nat} (h : i < n) : (dataBytes s n)[i]? = some (Memory.read s.cmd i) := by
  simp [dataBytes, h]

/-! ### The parts of an envelope (R43) -/

@[simp] theorem length_envelope (data : List Byte) : (envelope data).length = data.length + 9 := by
  simp [envelope, envelopeWith]

theorem envelope_len (data : List Byte) : (envelope data)[4]? = some (BitVec.ofNat 8 (data.length + 1)) := rfl

theorem envelope_lcs (data : List Byte) : (envelope data)[5]? = some (- BitVec.ofNat 8 (data.length + 1)) := rfl

/-- After the direction byte come the data bytes, the data checksum and the postamble. -/
theorem envelope_drop_seven (data : List Byte) :
    (envelope data).drop 7 = data ++ [- (0xD4#8 + byteSum data), 0x00#8] := rfl

theorem envelope_take_data (data : List Byte) : ((envelope data).drop 7).take data.length = data := by
  rw [envelope_drop_seven, List.take_left]

theorem envelope_data {data : List Byte} {i : Nat} {b : Byte} (h : data[i]? = some b) :
    (envelope data)[7 + i]? = some b := by
  obtain ⟨hi, -⟩ := List.getElem?_eq_some_iff.1 h
  rw [← List.getElem?_drop, envelope_drop_seven, List.getElem?_append_left hi, h]

theorem envelope_dcs (data : List Byte) : (envelope data)[7 + data.length]? = some (- (0xD4#8 + byteSum data)) := by
  rw [← List.getElem?_drop, envelope_drop_seven, List.getElem?_append_right (Nat.le_refl _), Nat.sub_self]
  rfl

/-- With no data bytes the data checksum is the negative of the direction byte alone. -/
theorem envelope_nil :
    envelope [] = [0x01#8, 0x00#8, 0x00#8, 0xFF#8, 0x01#8, 0xFF#8, 0xD4#8, 0x2C#8, 0x00#8] := by decide

/-! ### WRITE_FRAME -/

/-- A WRITE_FRAME that answers a next state has sent its envelope in one bracket. -/
theorem exec_writeFrame_trace {s t : State} {n : BitVec 8} (h : exec (.writeFrame n) s = .next t) :
    t.trace = s.trace ++ frameBracket (envelope (dataBytes s n.toNat)) := by
  cases exec_leaves h with
  | writeFrame => rw [State.finish_trace, State.sendFrame_trace]; rfl

/-- An accepting state refuses an issue whose operand is out of range (R56, R105). -/
theorem issue_of_not_wellFormed {i : Instr} {s : State} {body : State → Host.Outcome State Fault Refusal} (h : Accepting s)
    (hw : i.wellFormed = false) : issue i s body = .refused .badOperand := by
  obtain ⟨hidle, -⟩ := h
  simp only [issue, refusalOf, hidle, hw, ne_eq, not_true_eq_false, if_false, if_true]

/-- Every operation is an issue, so `exec` refuses an operand out of range. -/
theorem exec_of_not_wellFormed {i : Instr} {s : State} (h : Accepting s) (hw : i.wellFormed = false) :
    exec i s = .refused .badOperand := by
  cases i <;>
    simp only [exec, execIsReady, execWriteFrame, execWriteCommand, execReadAck, execReadResponse, execWake,
      issue_of_not_wellFormed h hw]

/-! ### The statements -/

/-- Settles O15, from the state WRITE_FRAME leaves. -/
theorem writeFrameResult : Obligations.WriteFrameResult := by
  refine ⟨fun n => rfl, fun s n haccepting hn => ⟨by simp, _, exec_writeFrame haccepting hn, rfl, ?_, ?_, ?_, ?_, rfl, ?_⟩⟩
  · rw [exec_writeFrame_trace (exec_writeFrame haccepting hn)]
    simp [frameBracket]
  · simp [lengthByte]
  · rw [State.finish_acc, State.sendFrame_acc]; rfl
  · simp
  · simp

/-- Settles O16: the envelope puts each checksum where R68 looks for it, as the negative of what it sums. -/
theorem envelopeChecksumsCancel : Obligations.EnvelopeChecksumsCancel := by
  intro s t n h
  have hdcs := envelope_dcs (dataBytes s n.toNat)
  have hdata := envelope_take_data (dataBytes s n.toNat)
  rw [length_dataBytes] at hdcs hdata
  refine ⟨_, exec_writeFrame_trace h, ⟨_, _, envelope_len _, envelope_lcs _, BitVec.add_right_neg _⟩, _, hdcs, hdata, ?_⟩
  rw [hdata, BitVec.add_right_neg]

/-- Settles O17: each corner is a part of the envelope sent; `N = 255` is out of range for the decoder and for the issue. -/
theorem writeFrameCorners : Obligations.WriteFrameCorners := by
  refine ⟨fun s t h => ?_, fun s t h => ?_, fun s t n h hsum => ?_, fun s t n i h hi => ?_, by decide,
    fun s haccepting => exec_of_not_wellFormed haccepting (by decide)⟩
  · have htrace := exec_writeFrame_trace h
    rwa [show dataBytes s (0#8 : Byte).toNat = [] from rfl, envelope_nil] at htrace
  · have hlen := envelope_len (dataBytes s (254#8 : Byte).toNat)
    have hlcs := envelope_lcs (dataBytes s (254#8 : Byte).toNat)
    rw [length_dataBytes] at hlen hlcs
    exact ⟨_, exec_writeFrame_trace h, by simp, hlen, hlcs⟩
  · have hdcs := envelope_dcs (dataBytes s n.toNat)
    rw [length_dataBytes, hsum] at hdcs
    exact ⟨_, exec_writeFrame_trace h, hdcs⟩
  · exact ⟨_, exec_writeFrame_trace h, envelope_data (dataBytes_getElem? hi)⟩

end Sys2Proof.Machine
end

section
/-! PROOFS. READ_ACK and WRITE_COMMAND (spec/42_command_cycle.md): the state each outcome of the command cycle leaves, and the
select brackets, bytes and sleeps of its events. -/

namespace Sys2Proof.Machine

/-! ### READ_ACK -/

/-- READ_ACK from an accepting state: one acknowledgment bracket, and its verdict as the result (R74). -/
theorem exec_readAck {s : State} (h : Accepting s) :
    exec .readAck s = .next ((s.start .readAck).ackQuery.2.finish (.okBool (s.start .readAck).ackQuery.1)) := by
  rw [exec, execReadAck, issue_of_accepting (i := .readAck) h rfl (Nat.zero_le _)]

/-- The result READ_ACK leaves: whether the six bytes are those of the ACK constant (R75). -/
theorem exec_readAck_result {s t : State} (h : exec .readAck s = .next t) :
    t.result = some (.okBool (s.answers 0 6 = [0x00#8, 0x00#8, 0xFF#8, 0x00#8, 0xFF#8, 0x00#8])) := by
  cases exec_leaves h with
  | readAck => rw [State.finish_result, State.ackQuery_fst]; rfl

/-- The events of READ_ACK (R50). -/
theorem exec_readAck_trace {s t : State} (h : exec .readAck s = .next t) :
    t.trace = s.trace ++ ackBracket (s.answers 0 6) := by
  cases exec_leaves h with
  | readAck => rw [State.finish_trace, State.ackQuery_trace]; rfl

/-- Received bytes are a given list exactly when each draw is the list's byte. -/
theorem State.answers_eq_iff (s : State) (bytes : List Byte) :
    s.answers 0 bytes.length = bytes ↔ ∀ j : Fin bytes.length, s.upcoming j = bytes[j] := by
  simp [List.ext_getElem_iff, State.answers, Fin.forall_iff]

/-! ### WRITE_COMMAND -/

/-- WRITE_COMMAND from an accepting state, for every `N` R56 admits. -/
theorem exec_writeCommand {s : State} {n : BitVec 8} (h : Accepting s) (h0 : n ≠ 0#8) (hn : n ≠ 255#8) :
    exec (.writeCommand n) s = .next ((s.start (.writeCommand n)).commandCycle n.toNat) := by
  have hw : (Instr.writeCommand n).wellFormed = true := by simp [Instr.wellFormed, h0, hn]
  rw [exec, execWriteCommand, issue_of_accepting h hw (Nat.zero_le _), countOf]

/-- A WRITE_COMMAND that answers a next state has run its cycle. -/
theorem exec_writeCommand_next {s t : State} {n : BitVec 8} (h : exec (.writeCommand n) s = .next t) :
    (s.start (.writeCommand n)).commandCycle n.toNat = t := by
  rw [exec, execWriteCommand] at h
  obtain ⟨-, -, -, h⟩ := issue_next h
  cases h; rfl

/-- What a WRITE_COMMAND that answers a next state leaves once its frame is sent. -/
theorem exec_writeCommand_leaves {s t : State} {n : BitVec 8} (h : exec (.writeCommand n) s = .next t) :
    CommandLeaves ((s.start (.writeCommand n)).commandSent n.toNat) t := by
  cases exec_leaves h with
  | writeCommand h => exact h

@[simp] theorem State.commandSent_upcoming (n : Nat) (s : State) (j : Nat) :
    (s.commandSent n).upcoming j = s.upcoming j := by simp [State.commandSent]

@[simp] theorem State.commandSent_answers (n : Nat) (s : State) (i m : Nat) :
    (s.commandSent n).answers i m = s.answers i m := State.answers_congr (State.commandSent_upcoming n s)

@[simp] theorem State.commandSent_trace (n : Nat) (s : State) :
    (s.commandSent n).trace = s.trace ++ frameBracket (envelope (dataBytes s n)) := by
  rw [State.commandSent, State.setPolls_trace, State.sendFrame_trace]; rfl

@[simp] theorem State.commandSent_draws (n : Nat) (s : State) : (s.commandSent n).draws = s.draws := by
  simp [State.commandSent]

/-- The result of WRITE_COMMAND once the acknowledgment bytes are read (R76). -/
def ackVerdict (bytes : List Byte) : Result :=
  if bytes = [0x00#8, 0x00#8, 0xFF#8, 0x00#8, 0xFF#8, 0x00#8] then .okUnit else .err .invalidAck

theorem ackVerdict_cases (bytes : List Byte) : ackVerdict bytes = .okUnit ∨ ackVerdict bytes = .err .invalidAck := by
  rw [ackVerdict]; split <;> simp

/-- The state WRITE_COMMAND ends in when the device is ready at query `k + 1`. -/
def State.commandAnswered (n k : Nat) (s : State) : State :=
  (((s.commandSent n).afterReady k).setPolls k).ackQuery.2.finish (ackVerdict (s.answers (k + 1) 6))

/-- The state WRITE_COMMAND ends in when no query finds the device ready. -/
def State.commandTimedOut (n : Nat) (s : State) : State :=
  (((s.commandSent n).afterRounds s.ackRetries).setPolls s.ackRetries).raise .timeout

/-- The device is ready within the retries: the acknowledgment is read and judged (R76). -/
theorem State.commandCycle_of_ready (n : Nat) {k : Nat} {s : State} (hk : k < s.ackRetries) (hr : ReadyAtQuery s k) :
    s.commandCycle n = s.commandAnswered n k := by
  have hready : ReadyAtQuery (s.commandSent n) k := by simpa [ReadyAtQuery, NotReadyFor] using hr
  rw [State.commandCycle_eq, (State.commandSent_kept n s).ackRetries,
    State.pollRetries_ready hready hk (State.commandSent_polls n s), Nat.zero_add, State.afterRetries, if_pos rfl,
    State.ackQuery_fst, State.commandAnswered, ackVerdict]
  simp only [State.setPolls_answers, State.afterReady_answers, State.commandSent_answers, Nat.add_zero, decide_eq_true_eq]
  split <;> rfl

/-- The device is never ready: Timeout, with no acknowledgment read (R76). -/
theorem State.commandCycle_of_notReady (n : Nat) {s : State} (h0 : s.ackRetries ≠ 0) (hr : NotReadyFor s 0 s.ackRetries) :
    s.commandCycle n = s.commandTimedOut n := by
  have hnot : NotReadyFor (s.commandSent n) 0 s.ackRetries := by simpa [NotReadyFor] using hr
  rw [State.commandCycle_eq, (State.commandSent_kept n s).ackRetries, State.commandTimedOut]
  obtain ⟨m, hm⟩ := Nat.exists_eq_succ_of_ne_zero h0
  rw [hm] at hnot ⊢
  rw [State.pollRetries_exhausted hnot, Nat.zero_add]
  rfl

theorem State.commandAnswered_trace (n k : Nat) (s : State) :
    (s.commandAnswered n k).trace = s.trace ++ frameBracket (envelope (dataBytes s n)) ++ pollUntilReady s k
      ++ ackBracket (s.answers (k + 1) 6) := by
  simp [State.commandAnswered, pollUntilReady]

theorem State.commandTimedOut_trace (n : Nat) (s : State) :
    (s.commandTimedOut n).trace = s.trace ++ frameBracket (envelope (dataBytes s n))
      ++ notReadyRounds (s.answers 0 s.ackRetries) := by
  simp [State.commandTimedOut]

theorem State.commandAnswered_ackBuf (n k : Nat) (s : State) :
    (s.commandAnswered n k).ackBuf = ⟨some (s.upcoming (k + 1)), some (s.upcoming (k + 2)), some (s.upcoming (k + 3)),
      some (s.upcoming (k + 4)), some (s.upcoming (k + 5)), some (s.upcoming (k + 6))⟩ := by
  simp [State.commandAnswered, Nat.add_assoc]

/-- A WRITE_COMMAND whose device is ready at query `k + 1`, within the retries. -/
theorem exec_writeCommand_of_ready {s t : State} {n : BitVec 8} {k : Nat} (h : exec (.writeCommand n) s = .next t)
    (hk : k < s.ackRetries) (hr : ReadyAtQuery s k) : t = (s.start (.writeCommand n)).commandAnswered n.toNat k := by
  rw [← exec_writeCommand_next h]
  exact State.commandCycle_of_ready n.toNat hk hr

/-- A WRITE_COMMAND whose device is never ready. -/
theorem exec_writeCommand_of_notReady {s t : State} {n : BitVec 8} (h : exec (.writeCommand n) s = .next t)
    (hr : NotReadyFor s 0 s.ackRetries) : t = (s.start (.writeCommand n)).commandTimedOut n.toNat := by
  obtain ⟨⟨-, hretries⟩, -⟩ := exec_next_accepting h
  rw [← exec_writeCommand_next h]
  exact State.commandCycle_of_notReady n.toNat hretries hr

/-- WRITE_COMMAND keeps the `LEN` and `ACC` of its frame. -/
theorem CommandLeaves.frame_registers {n : Nat} {s t : State} (h : CommandLeaves (s.commandSent n) t) :
    t.len = some (BitVec.ofNat 8 (n + 1)) ∧ t.acc = some (0xD4#8 + byteSum (dataBytes s n)) := by
  obtain ⟨hacc, hlen, -⟩ := h.working
  rw [hacc, hlen, State.commandSent, State.setPolls_len, State.setPolls_acc, State.sendFrame_len, State.sendFrame_acc]
  exact ⟨rfl, rfl⟩

/-- WRITE_COMMAND receives at most one status byte a query, and six bytes of acknowledgment. -/
theorem CommandLeaves.draws_le {v t : State} (h : CommandLeaves v t) : t.draws ≤ v.draws + v.ackRetries + 6 := by
  cases h <;> simp <;> omega

/-- After its frame WRITE_COMMAND makes status queries, sleeps and acknowledgment reads only (R80). -/
theorem CommandLeaves.sends_no_frame {v t : State} (h : CommandLeaves v t) :
    ∃ new, t.trace = v.trace ++ new ∧ .hold .wakeup ∉ new ∧ .tx 0x01#8 ∉ new := by
  cases h with
  | @acknowledged k _ _ _ | @invalidAck k _ _ _ =>
    refine ⟨notReadyRounds (v.answers 0 k) ++ statusBracket (v.upcoming k) ++ ackBracket (v.answers (k + 1) 6), by simp, ?_⟩
    simp [notReadyRounds, statusBracket, ackBracket]
  | timeout =>
    refine ⟨notReadyRounds (v.answers 0 v.ackRetries), by simp, ?_⟩
    simp [notReadyRounds, statusBracket]

/-! ### Counting events (R79) -/

/-- `events` hold this many select brackets, bytes sent or received, and sleeps of one time unit. -/
structure Tally (events : List Event) (brackets bytes sleeps : Nat) : Prop where
  sel : events.count .sel = brackets
  rel : events.count .rel = brackets
  bytes : events.countP carriesByte = bytes
  sleeps : events.count (.sleep 1) = sleeps

theorem Tally.append {l l' : List Event} {m m' b b' p p' : Nat} (h : Tally l m b p) (h' : Tally l' m' b' p') :
    Tally (l ++ l') (m + m') (b + b') (p + p') where
  sel := by rw [List.count_append, h.sel, h'.sel]
  rel := by rw [List.count_append, h.rel, h'.rel]
  bytes := by rw [List.countP_append, h.bytes, h'.bytes]
  sleeps := by rw [List.count_append, h.sleeps, h'.sleeps]

/-- One select bracket around events that send and receive only. -/
theorem Tally.bracket {l : List Event} {b : Nat} (h : Tally l 0 b 0) : Tally (.sel :: (l ++ [.rel])) 1 b 0 where
  sel := by simp [h.sel]
  rel := by simp [h.rel]
  bytes := by rw [List.countP_cons, List.countP_append, h.bytes]; rfl
  sleeps := by simp [h.sleeps]

theorem Tally.cons_tx {l : List Event} {m b p : Nat} (h : Tally l m b p) (a : Byte) : Tally (.tx a :: l) m (b + 1) p where
  sel := by simp [h.sel]
  rel := by simp [h.rel]
  bytes := by rw [List.countP_cons_of_pos rfl, h.bytes]
  sleeps := by simp [h.sleeps]

theorem Tally.cons_hold {l : List Event} {m b p : Nat} (h : Tally l m b p) (k : HoldKind) : Tally (.hold k :: l) m b p where
  sel := by simp [h.sel]
  rel := by simp [h.rel]
  bytes := by rw [List.countP_cons_of_neg Bool.false_ne_true, h.bytes]
  sleeps := by simp [h.sleeps]

theorem tally_sent (bytes : List Byte) : Tally (bytes.map .tx) 0 bytes.length 0 := by
  constructor <;> simp [List.count_eq_zero, List.countP_map, Function.comp_def, carriesByte]

theorem tally_received (bytes : List Byte) : Tally (bytes.map .rx) 0 bytes.length 0 := by
  constructor <;> simp [List.count_eq_zero, List.countP_map, Function.comp_def, carriesByte]

theorem tally_frameBracket (sent : List Byte) : Tally (frameBracket sent) 1 sent.length 0 :=
  ((tally_sent sent).cons_hold .wakeup).bracket

theorem tally_ackBracket (bytes : List Byte) : Tally (ackBracket bytes) 1 (bytes.length + 1) 0 :=
  ((tally_received bytes).cons_tx 0x03#8).bracket

theorem tally_statusBracket (b : Byte) : Tally (statusBracket b) 1 2 0 := ((tally_received [b]).cons_tx 0x02#8).bracket

theorem tally_notReadyRounds (bytes : List Byte) :
    Tally (notReadyRounds bytes) bytes.length (2 * bytes.length) bytes.length := by
  induction bytes with
  | nil => exact ⟨rfl, rfl, rfl, rfl⟩
  | cons b bytes ih =>
    have slept : Tally [.sleep 1] 0 0 1 := ⟨rfl, rfl, rfl, rfl⟩
    have h := ((tally_statusBracket b).append slept).append ih
    rw [List.length_cons, Nat.mul_succ, Nat.add_comm (2 * _), Nat.add_comm bytes.length]
    exact h

theorem tally_pollUntilReady (s : State) (k : Nat) : Tally (pollUntilReady s k) (k + 1) (2 * k + 2) k := by
  have h := (tally_notReadyRounds (s.answers 0 k)).append (tally_statusBracket (s.upcoming k))
  rwa [State.answers_length] at h

/-- The events of WRITE_COMMAND when the device is ready at query `k + 1`. -/
theorem tally_commandAnswered {s : State} {n k : Nat} {new : List Event}
    (h : (s.commandAnswered n k).trace = s.trace ++ new) : Tally new (k + 3) (n + 2 * k + 18) k := by
  have hnew : new = frameBracket (envelope (dataBytes s n)) ++ pollUntilReady s k ++ ackBracket (s.answers (k + 1) 6) := by
    rw [State.commandAnswered_trace, List.append_assoc, List.append_assoc, List.append_cancel_left_eq] at h
    rw [← h, List.append_assoc]
  have hframe := tally_frameBracket (envelope (dataBytes s n))
  have hall := (hframe.append (tally_pollUntilReady s k)).append (tally_ackBracket (s.answers (k + 1) 6))
  rw [length_envelope, length_dataBytes, State.answers_length] at hall
  rw [hnew]
  convert hall using 1 <;> omega

/-- The events of WRITE_COMMAND when the device is never ready. -/
theorem tally_commandTimedOut {s : State} {n : Nat} {new : List Event}
    (h : (s.commandTimedOut n).trace = s.trace ++ new) :
    Tally new (s.ackRetries + 1) (n + 9 + 2 * s.ackRetries) s.ackRetries := by
  have hnew : new = frameBracket (envelope (dataBytes s n)) ++ notReadyRounds (s.answers 0 s.ackRetries) := by
    rw [State.commandTimedOut_trace, List.append_assoc, List.append_cancel_left_eq] at h
    exact h.symm
  have hall := (tally_frameBracket (envelope (dataBytes s n))).append (tally_notReadyRounds (s.answers 0 s.ackRetries))
  rw [length_envelope, length_dataBytes, State.answers_length] at hall
  rw [hnew]
  convert hall using 1 <;> omega

/-! ### The statements -/

/-- Settles O19, from the state READ_ACK leaves. -/
theorem readAckResult : Obligations.ReadAckResult := by
  refine ⟨by decide, fun s haccepting => ⟨_, exec_readAck haccepting, ?_,
    exec_readAck_result (exec_readAck haccepting), ?_, by simp, by simp, by simp⟩⟩
  · rw [State.finish_ackBuf, State.ackQuery_ackBuf]; rfl
  · rw [exec_readAck_trace (exec_readAck haccepting)]
    simp [ackBracket]

/-- Settles O20: the verdict is equality of the six bytes, and bytes that differ in a bit are not equal. -/
theorem ackComparisonExact : Obligations.AckComparisonExact := by
  intro s t h
  have hbytes : s.answers 0 6 = [0x00#8, 0x00#8, 0xFF#8, 0x00#8, 0xFF#8, 0x00#8] ↔
      ∀ j : Fin 6, s.upcoming j = [0x00#8, 0x00#8, 0xFF#8, 0x00#8, 0xFF#8, 0x00#8][j] :=
    s.answers_eq_iff [0x00#8, 0x00#8, 0xFF#8, 0x00#8, 0xFF#8, 0x00#8]
  refine ⟨exec_readAck_trace h, fun hall => ?_, fun ⟨j, k, _, hbit⟩ => ?_⟩
  · rw [exec_readAck_result h, decide_eq_true (hbytes.2 hall)]
  · have hne : s.answers 0 6 ≠ [0x00#8, 0x00#8, 0xFF#8, 0x00#8, 0xFF#8, 0x00#8] :=
      fun heq => hbit (congrArg (·.getLsbD k) (hbytes.1 heq j))
    rw [exec_readAck_result h, decide_eq_false hne]

/-- Settles O21: the first ready answer, or there being none, decides the state the cycle ends in. -/
theorem writeCommandResult : Obligations.WriteCommandResult := by
  refine ⟨fun n => rfl, fun s haccepting => exec_of_not_wellFormed haccepting (by decide), fun s n haccepting h0 hn => ?_⟩
  have hexec := exec_writeCommand haccepting h0 hn
  have hleaves := exec_writeCommand_leaves hexec
  obtain ⟨hpending, -⟩ := exec_writeCommand_pendingOp_rbuf hexec
  obtain ⟨hlen, hacc⟩ := hleaves.frame_registers
  refine ⟨_, hexec, hpending, hlen, hacc, hleaves.ended.sel, hleaves.ended.phase, fun k hk hready => ?_, fun hnot => ?_⟩
  · rw [exec_writeCommand_of_ready hexec hk hready]
    refine ⟨rfl, ?_, State.commandAnswered_ackBuf _ _ _, State.commandAnswered_trace _ _ _⟩
    simp [State.commandAnswered]
  · rw [exec_writeCommand_of_notReady hexec hnot]
    exact ⟨rfl, rfl, State.commandTimedOut_trace _ _⟩

/-- Settles O22, from the three ways WRITE_COMMAND ends. -/
theorem writeCommandAlwaysEnds : Obligations.WriteCommandAlwaysEnds := by
  intro s n haccepting h0 hn
  have hexec := exec_writeCommand haccepting h0 hn
  have hleaves := exec_writeCommand_leaves hexec
  obtain ⟨hpending, -⟩ := exec_writeCommand_pendingOp_rbuf hexec
  obtain ⟨hsel, ⟨r, hr⟩, hphase, -⟩ := hleaves.ended
  have hdraws := hleaves.draws_le
  rw [State.commandSent_draws, (State.commandSent_kept _ _).ackRetries] at hdraws
  refine ⟨_, hexec, hphase, hsel, hpending, hdraws, ?_⟩
  rw [hr]
  simpa using hleaves.result_cases hr

/-- Settles O23: the events of each outcome, bracket by bracket. -/
theorem writeCommandEventCounts : Obligations.WriteCommandEventCounts := by
  intro s t n h
  obtain ⟨new, htrace, -⟩ := (exec_leaves h).exchanges
  refine ⟨new, htrace, fun k hk hready => ?_, fun hnot => ?_⟩
  · obtain rfl := exec_writeCommand_of_ready h hk hready
    obtain ⟨hsel, hrel, hbytes, hsleeps⟩ := tally_commandAnswered htrace
    refine ⟨?_, hsel, hrel, hbytes, hsleeps⟩
    simpa [State.commandAnswered] using ackVerdict_cases _
  · obtain rfl := exec_writeCommand_of_notReady h hnot
    obtain ⟨hsel, hrel, hbytes, hsleeps⟩ := tally_commandTimedOut htrace
    exact ⟨rfl, hsel, hrel, hbytes, hsleeps⟩

/-- Settles O24: after the frame only receiving brackets and sleeps follow. -/
theorem writeCommandSendsOneFrame : Obligations.WriteCommandSendsOneFrame := by
  intro s t n h
  obtain ⟨new, htrace, hhold, htx⟩ := (exec_writeCommand_leaves h).sends_no_frame
  rw [State.commandSent_trace] at htrace
  exact ⟨new, htrace, List.count_eq_zero.2 hhold, List.count_eq_zero.2 htx⟩

end Sys2Proof.Machine
end

section
/-! PROOFS. READ_RESPONSE (spec/43_response_parser.md): how each exit of the read section ends the operation, seen from the
state in which its poll loop began, and the round trip through the encoder's layout. -/

namespace Sys2Proof.Machine

/-! ### How an exit ends the operation -/

/-- An exit `n` reads after the first `m` ends the operation after that many reads in all, in one released bracket (R83). -/
theorem OpensReadSection.endsAfter {s v r u : State} {k m n reads : Nat} {res : Result} (h : OpensReadSection s k v)
    (hr : ReadsFrom m v r) (hpending : u.pendingOp = r.pendingOp)
    (hend : u.result = some res ∧ u.phase = .idle ∧ u.sel = .released)
    (htrace : u.trace = r.trace ++ (r.answers 0 n).map .rx ++ [.rel]) (hreads : reads = m + n) :
    EndsAfter s k reads res u := by
  subst hreads
  obtain ⟨hresult, hphase, hsel⟩ := hend
  refine ⟨hresult, hphase, hsel, hpending.trans (hr.pendingOp.trans h.pendingOp), ?_⟩
  rw [htrace, hr.trace, h.trace, hr.answers, h.answers, h.answers, State.answers_append]
  simp [openReadSection]

/-- A failed check of steps 3 to 5 ends the operation with the reads made so far, and writes nothing to RBUF (R84 to R86,
R93). -/
theorem OpensReadSection.badFrame_ends {s v r : State} {k m : Nat} (h : OpensReadSection s k v) (hr : ReadsFrom m v r) :
    ∃ u, r.badFrame = .next u ∧ EndsAfter s k m (.err .invalidFrame) u ∧ u.rbuf = s.rbuf :=
  ⟨_, rfl, h.endsAfter (n := 0) hr rfl ⟨rfl, rfl, rfl⟩ (by simp [State.answers_zero]) rfl, hr.rbuf.trans h.rbuf⟩

/-- `EFF` is written without a further read. -/
theorem State.afterCode_setEff_readsFrom (v : State) (eff : Nat) : ReadsFrom 7 v (v.afterCode.setEff eff) :=
  ⟨⟨rfl, rfl, rfl, rfl, rfl⟩, rfl, rfl, rfl, rfl, rfl⟩

/-- Where the device is ready and the header passes, READ_RESPONSE is step 6 on (R87), from the state after seven reads. -/
theorem Answered.checkCapacity {s : State} {cap : BitVec 8} {t : BitVec 16} {k : Nat} {p : Byte} (h : Answered s cap t k)
    (hp : s.pendingOp = some p) (hheader : HeaderPasses s (k + 1) p) :
    ∃ v, OpensReadSection s k v ∧
      responding s cap t =
        v.afterCode.checkCapacity cap.toNat (s.upcoming (k + 4)) (0xD5#8 + (p + 1#8)) := by
  obtain ⟨v, hopens, hv⟩ := h.readSection
  refine ⟨v, hopens, ?_⟩
  rw [hv, State.readSection_of_headerPasses _ (hopens.pendingOp.trans hp) (hopens.headerPasses hheader), hopens.upcoming]

/-- Step 6 beyond the capacity (R88). -/
theorem State.checkCapacity_of_lt {cap : Nat} {len : Byte} (h : cap < len.toNat - 2) (seed : Byte) (s : State) :
    s.checkCapacity cap len seed = .next ((s.setEff (len.toNat - 2)).drainFrame (len.toNat - 2)) := if_pos h

/-- Step 6 within the capacity (R87). -/
theorem State.checkCapacity_of_le {cap : Nat} {len : Byte} (h : len.toNat - 2 ≤ cap) (seed : Byte) (s : State) :
    s.checkCapacity cap len seed = (s.setEff (len.toNat - 2)).takePayload (len.toNat - 2) seed := if_neg (Nat.not_lt.2 h)

/-- Steps 7 to 10 from step 6 on (R89 to R92): the payload is stored and summed, and its checksum decides the end. -/
theorem OpensReadSection.takePayload_ends {s v r : State} {k : Nat} (h : OpensReadSection s k v) (hr : ReadsFrom 7 v r)
    (hwf : Memory.wf s.rbuf = true) (eff : Nat) (seed : Byte) :
    ∃ u, r.takePayload eff seed = .next u ∧ u.acc = some (seed + byteSum (s.answers (k + 8) eff)) ∧
      (∀ a, Memory.read u.rbuf a = if a < eff then s.upcoming (k + 8 + a) else Memory.read s.rbuf a) ∧
      if seed + byteSum (s.answers (k + 8) eff) + s.upcoming (k + 8 + eff) = 0#8 then
        EndsAfter s k (eff + 9) (.okCount eff) u
      else EndsAfter s k (8 + eff) (.err .invalidFrame) u := by
  have hrbuf : r.rbuf = s.rbuf := hr.rbuf.trans h.rbuf
  have hpayload : r.answers 0 eff = s.answers (k + 8) eff := by rw [hr.answers, h.answers]
  have hdcs : r.upcoming eff = s.upcoming (k + 8 + eff) := by rw [hr.upcoming, h.upcoming]; congr 1; omega
  have hstored (a : Nat) : Memory.read (Memory.store r.rbuf 0 (r.answers 0 eff)) a =
      if a < eff then s.upcoming (k + 8 + a) else Memory.read s.rbuf a := by
    rw [hpayload, hrbuf, Memory.read_store_answers hwf]
  rw [State.takePayload_eq, ← hpayload, ← hdcs]
  split
  · exact ⟨_, rfl, rfl, hstored, h.endsAfter hr rfl ⟨rfl, rfl, rfl⟩ rfl (by omega)⟩
  · exact ⟨_, rfl, rfl, hstored, h.endsAfter hr rfl ⟨rfl, rfl, rfl⟩ rfl (by omega)⟩

/-! ### The encoder's layout -/

/-- The layout of R96 is that of R43 for `(p + 1) :: P`, but for the request byte and the direction. -/
theorem responseEnvelope_eq_drop (p : Byte) (P : List Byte) :
    responseEnvelope p P = (envelopeWith 0xD5#8 ((p + 1#8) :: P)).drop 1 := by
  simp [responseEnvelope, envelopeWith, byteSum, BitVec.add_assoc]

/-- A byte of the list the device answers is the draw at its place. -/
theorem State.upcoming_of_answers {s : State} {i j n : Nat} {b : Byte} {bytes : List Byte} (h : s.answers i n = bytes)
    (hb : bytes[j]? = some b) : s.upcoming (i + j) = b := by
  subst h
  obtain ⟨hj, hb⟩ := List.getElem?_eq_some_iff.1 hb
  simpa [State.answers] using hb

/-- Where the device's answers lie as R96 says: the header, the payload and its checksum. -/
theorem State.answers_of_responseEnvelope {s : State} {i : Nat} {p : Byte} {P : List Byte}
    (h : s.answers i (P.length + 9) = responseEnvelope p P) :
    s.answers i 7 =
        [0x00#8, 0x00#8, 0xFF#8, BitVec.ofNat 8 (P.length + 2), - BitVec.ofNat 8 (P.length + 2), 0xD5#8, p + 1#8] ∧
      s.answers (i + 7) P.length = P ∧
      s.answers (i + 7 + P.length) 2 = [- (0xD5#8 + (p + 1#8) + byteSum P), 0x00#8] := by
  rw [show P.length + 9 = 7 + P.length + 2 by omega, State.answers_append, State.answers_append, responseEnvelope] at h
  obtain ⟨hfront, htrailer⟩ := List.append_inj' h (by simp)
  obtain ⟨hheader, hpayload⟩ := List.append_inj hfront (by simp)
  exact ⟨hheader, hpayload, by rwa [Nat.add_assoc]⟩

/-- An answer in this layout passes the header checks. -/
theorem headerPasses_of_answers {s : State} {i : Nat} {p len : Byte}
    (h : s.answers i 7 = [0x00#8, 0x00#8, 0xFF#8, len, - len, 0xD5#8, p + 1#8]) : HeaderPasses s i p := by
  have hlen : s.upcoming (i + 3) = len := State.upcoming_of_answers h rfl
  have hlcs : s.upcoming (i + 4) = - len := State.upcoming_of_answers h rfl
  exact ⟨State.upcoming_of_answers h (j := 0) rfl, State.upcoming_of_answers h rfl, State.upcoming_of_answers h rfl,
    by rw [hlen, hlcs, BitVec.add_right_neg], State.upcoming_of_answers h rfl, State.upcoming_of_answers h rfl⟩

/-- A device that is ready at the first query of an accepting block answers READ_RESPONSE, whatever its budget. -/
theorem Accepting.answered {s : State} {cap : BitVec 8} (h : Accepting s) (hcap : cap.toNat ≤ s.rbufSize)
    (hready : (s.upcoming 0).getLsbD 0 = true) (t : BitVec 16) : Answered s cap t 0 :=
  ⟨.inl ⟨h, hcap⟩, ⟨fun _ hj => absurd hj (Nat.not_lt_zero _), hready⟩, by simp [WithinBudget]⟩

theorem Accepting.responding_eq_exec {s : State} (h : Accepting s) (cap : BitVec 8) (t : BitVec 16) :
    responding s cap t = exec (.readResponse cap t) s := if_pos h.1

/-! ### With a pending opcode -/

/-- With a pending opcode READ_RESPONSE answers a next state: its one fault wants none (R104). -/
theorem exec_readResponse_next_of_pendingOp {s : State} {cap : BitVec 8} {p : Byte} (h : Accepting s)
    (hcap : cap.toNat ≤ s.rbufSize) (hp : s.pendingOp = some p) (b : BitVec 16) :
    ∃ t, exec (.readResponse cap b) s = .next t := by
  rw [exec_readResponse h hcap]
  rcases State.awaitResponse_cases cap.toNat b.toNat 0 ((s.start (.readResponse cap b)).setElapsed 0) rfl with
    ⟨k, u, -, hu, -⟩ | ⟨k, -, hnone, -⟩ | ⟨k, -, -, hu⟩ | ⟨-, hu⟩
  · exact ⟨_, hu⟩
  · cases hp.symm.trans hnone
  · exact ⟨_, hu⟩
  · exact ⟨_, hu⟩

/-! ### The statements -/

/-- Settles O27: an answered READ_RESPONSE is its read section, which takes the table's exit. -/
theorem readResponseFollowsExitTable : Obligations.ReadResponseFollowsExitTable := by
  intro s cap t k hanswered hwf
  obtain ⟨v, hopens, hv⟩ := hanswered.readSection
  rw [hv]
  exact hopens.exitsBy hwf cap.toNat

/-- Settles O32: each header check that fails ends the read section after the byte it reads. -/
theorem headerMismatchExits : Obligations.HeaderMismatchExits := by
  intro s cap t k hanswered
  obtain ⟨v, hopens, hv⟩ := hanswered.readSection
  have hup (j : Nat) : v.upcoming j = s.upcoming (k + 1 + j) := hopens.upcoming j
  rw [hv, State.readSection_eq, hup 0, hup 1, hup 2]
  refine ⟨fun h0 => ?_, fun h0 h1 => ?_, fun h0 h1 h2 => ?_⟩
  · rw [if_neg h0]; exact hopens.badFrame_ends (v.inRead_readsFrom 1)
  · rw [if_pos h0, if_neg h1]; exact hopens.badFrame_ends (v.inRead_readsFrom 2)
  · rw [if_pos h0, if_pos h1, if_neg h2]; exact hopens.badFrame_ends (v.inRead_readsFrom 3)

/-- Settles O33: both length bytes are in their registers when the check fails. -/
theorem lengthMismatchExit : Obligations.LengthMismatchExit := by
  intro s cap t k hanswered h0 h1 h2 hlen
  obtain ⟨v, hopens, hv⟩ := hanswered.readSection
  have hup (j : Nat) : v.upcoming j = s.upcoming (k + 1 + j) := hopens.upcoming j
  rw [hv, State.readSection_eq, hup 0, hup 1, hup 2, hup 3, hup 4, if_pos h0, if_pos h1, if_pos h2, if_neg hlen]
  obtain ⟨u, hu, hend, hrbuf⟩ := hopens.badFrame_ends v.afterLength_readsFrom
  cases hu
  exact ⟨_, rfl, hend, hrbuf, congrArg some (hup 3), congrArg some (hup 4)⟩

/-- Settles O34: the direction byte is judged before the response code is read, and whether there is a pending
opcode before the code is compared with it. -/
theorem directionAndEchoChecks : Obligations.DirectionAndEchoChecks := by
  intro s cap t k hanswered h0 h1 h2 hlen
  obtain ⟨v, hopens, hv⟩ := hanswered.readSection
  have hup (j : Nat) : v.upcoming j = s.upcoming (k + 1 + j) := hopens.upcoming j
  rw [hv, State.readSection_eq, hup 0, hup 1, hup 2, hup 3, hup 4, hup 5, hup 6, hopens.pendingOp, if_pos h0, if_pos h1,
    if_pos h2, if_pos hlen]
  refine ⟨fun htfi => ?_, fun htfi hnone => ?_, fun p htfi hp hcode => ?_⟩
  · rw [if_neg htfi]; exact hopens.badFrame_ends v.afterDirection_readsFrom
  · rw [if_pos htfi, hnone]
    refine ⟨_, rfl, rfl, hopens.rbuf, ?_⟩
    rw [v.afterCode_readsFrom.trace, hopens.trace, hopens.answers]
  · rw [if_pos htfi, hp]
    dsimp only
    rw [if_neg hcode]
    exact hopens.badFrame_ends v.afterCode_readsFrom

/-- Settles O36: the drain reads `EFF + 2` bytes after the header's seven. -/
theorem noSpaceDrainsFrame : Obligations.NoSpaceDrainsFrame := by
  intro s cap t k p hanswered hp hheader hcap
  obtain ⟨v, hopens, hv⟩ := hanswered.checkCapacity hp hheader
  rw [hv, State.checkCapacity_of_lt hcap, State.drainFrame_eq]
  exact ⟨_, rfl, hopens.rbuf, hopens.endsAfter (v.afterCode_setEff_readsFrom _) rfl ⟨rfl, rfl, rfl⟩ rfl (by omega)⟩

/-- Settles O37: step 6 passes to the payload, seeded with the direction byte and the expected code. -/
theorem payloadReceived : Obligations.PayloadReceived := by
  rintro s cap t k p eff hanswered hwf hp hheader rfl hcap
  obtain ⟨v, hopens, hv⟩ := hanswered.checkCapacity hp hheader
  rw [hv, State.checkCapacity_of_le hcap]
  exact hopens.takePayload_ends (v.afterCode_setEff_readsFrom _) hwf _ _

/-- Settles O31: the layout passes the header checks, fits the capacity, and its checksum cancels. -/
theorem responseRoundTrip : Obligations.ResponseRoundTrip := by
  refine ⟨responseEnvelope_eq_drop, fun s p P cap t haccepting hcap hwf hp hformat hfits hready hsent => ?_⟩
  obtain ⟨hheader, hpayload, htrailer⟩ := State.answers_of_responseEnvelope hsent
  have hlen : s.upcoming (0 + 4) = BitVec.ofNat 8 (P.length + 2) := State.upcoming_of_answers hheader (j := 3) rfl
  have heff : P.length = (s.upcoming (0 + 4)).toNat - 2 := by rw [hlen, BitVec.toNat_ofNat]; omega
  have hdcs : s.upcoming (0 + 8 + P.length) = - (0xD5#8 + (p + 1#8) + byteSum P) :=
    State.upcoming_of_answers htrailer (j := 0) rfl
  obtain ⟨u, hu, -, hread, hend⟩ := payloadReceived s cap t 0 p P.length (haccepting.answered hcap hready t) hwf hp
    (headerPasses_of_answers hheader) heff hfits
  rw [hpayload, hdcs, BitVec.add_right_neg, if_pos rfl] at hend
  refine ⟨u, (haccepting.responding_eq_exec cap t).symm.trans hu, hend, fun i b hb => ?_⟩
  obtain ⟨hi, -⟩ := List.getElem?_eq_some_iff.1 hb
  rw [hread, if_pos hi]
  exact State.upcoming_of_answers hpayload hb

/-- Settles O38: no fault is left, and READ_RESPONSE has ended with one of its results or waits. -/
theorem readResponseCompletes : Obligations.ReadResponseCompletes := by
  intro s cap b p haccepting hcap hp
  obtain ⟨t, h⟩ := exec_readResponse_next_of_pendingOp haccepting hcap hp b
  have hleaves := exec_readResponse_leaves h
  obtain ⟨hsel, -⟩ := exec_resting h
  refine ⟨t, h, hsel, hleaves.pendingOp_eq.trans hp, ?_⟩
  rcases hleaves.ended_or_waits with ⟨-, ⟨r, hr⟩, hphase, -⟩ | ⟨-, hresult, hphase, -, hb⟩
  · refine .inl ⟨hphase, ?_⟩
    rw [hr]
    simpa using (hleaves.result_cases (.inr rfl) hr).imp_left fun ⟨n, hn, _⟩ => ⟨n, hn⟩
  · exact .inr ⟨hb, hphase, hresult⟩

end Sys2Proof.Machine
end

section
/-! PROOFS. Refusals and faults (spec/60_exceptions.md): when the issue of an operation is refused, and the one way a step of
a resting block faults. -/

namespace Sys2Proof.Machine

/-! ### Refusals (R105) -/

/-- Only READ_RESPONSE needs RBUF, as many bytes as its capacity (R26). -/
theorem lt_bufferNeed_iff {i : Instr} {n : Nat} : n < bufferNeed i ↔ ∃ cap t, i = .readResponse cap t ∧ n < cap.toNat := by
  cases i <;> simp [bufferNeed, capacityOf]

/-- The reasons of R105 that are judged of an operation. -/
theorem refusalOf_eq_some_iff {i : Instr} {s : State} : (∃ r, refusalOf i s = some r) ↔
    s.phase ≠ .idle ∨ i.wellFormed = false ∨ s.ackRetries = 0 ∨ s.rbufSize < bufferNeed i := by
  rw [← Option.isSome_iff_exists, ← Option.ne_none_iff_isSome, ne_eq, refusalOf_eq_none, Accepting, ← Bool.not_eq_true,
    ← Nat.not_le]
  tauto

theorem issue_of_refusal {i : Instr} {s : State} {r : Refusal} {body : State → Host.Outcome State Fault Refusal}
    (h : refusalOf i s = some r) : issue i s body = .refused r := by rw [issue, h]

/-- Every operation is an issue. Once begun it answers a next state, unless it is a READ_RESPONSE: then its poll loop
answers. -/
theorem exec_eq_issue (i : Instr) : ∃ body, (∀ s, exec i s = issue i s body) ∧
    ((∀ v, ∃ t, body v = .next t) ∨
      ∃ cap t : Nat, ∀ v, body v = (v.setElapsed 0).awaitResponse cap t 0) := by
  cases i <;> simp only [exec, execIsReady, execWriteFrame, execWriteCommand, execReadAck, execReadResponse, execWake]
  case isReady | writeFrame | writeCommand | readAck | wake => exact ⟨_, fun _ => rfl, .inl fun _ => ⟨_, rfl⟩⟩
  case readResponse cap t => exact ⟨_, fun _ => rfl, .inr ⟨capacityOf cap, budgetOf t, fun _ => rfl⟩⟩

/-- READ_RESPONSE's poll loop refuses nothing: a refusal is decided before anything happens (R106). -/
theorem State.awaitResponse_ne_refused {s : State} {e : Nat} (he : s.elapsed = some e) (cap t : Nat) (r : Refusal) :
    s.awaitResponse cap t e ≠ .refused r := by
  rcases State.awaitResponse_cases cap t e s he with ⟨_, _, -, h, -⟩ | ⟨_, -, -, h⟩ | ⟨_, -, -, h⟩ | ⟨-, h⟩ <;>
    rw [h] <;> exact nofun

/-- An operation is refused at its issue or not at all (R106), for the reason `refusalOf` gives. -/
theorem exec_refused_iff {i : Instr} {s : State} {r : Refusal} : exec i s = .refused r ↔ refusalOf i s = some r := by
  obtain ⟨body, hexec, hbody⟩ := exec_eq_issue i
  rw [hexec]
  refine ⟨fun h => ?_, issue_of_refusal⟩
  rcases issue_refused h with hr | ⟨-, hrefused⟩
  · exact hr
  · rcases hbody with hnext | ⟨cap, t, hawait⟩
    · obtain ⟨t, ht⟩ := hnext (s.start i)
      cases ht.symm.trans hrefused
    · rw [hawait] at hrefused
      exact absurd hrefused (State.awaitResponse_ne_refused (State.setElapsed_elapsed _ _) _ _ _)

/-! ### The fault (R104) -/

/-- `f` is NoPendingOpcode, from a state `s` without a pending opcode, in a read section after the 7 reads of its header
(R86, R104). -/
def StopsWithoutOpcode (s : State) (f : Fault) : Prop :=
  ∃ u, f = .noPendingOpcode u ∧ s.pendingOp = none ∧ u.pendingOp = none ∧ u.sel = .asserted ∧
    ∃ pre bytes, u.trace = s.trace ++ pre ++ openReadSection bytes ∧ bytes.length = 7

/-- Only the pending opcode and the trace of the state matter. -/
theorem StopsWithoutOpcode.congr {s v : State} {f : Fault} (h : StopsWithoutOpcode v f) (hp : v.pendingOp = s.pendingOp)
    (ht : v.trace = s.trace) : StopsWithoutOpcode s f := by
  rwa [StopsWithoutOpcode, hp, ht] at h

/-- A fault of READ_RESPONSE's loop and read section: the device was ready at some query, and its header passed as far as the
echo check. -/
theorem State.awaitResponse_fault {s : State} {cap t e : Nat} {f : Fault} (he : s.elapsed = some e)
    (h : s.awaitResponse cap t e = .fault f) : StopsWithoutOpcode s f := by
  rcases State.awaitResponse_cases cap t e s he with ⟨_, _, -, h', -⟩ | ⟨k, -, hp, h'⟩ | ⟨_, -, -, h'⟩ | ⟨-, h'⟩ <;>
    rw [h'] at h <;> cases h
  refine ⟨_, rfl, hp, hp, rfl, pollUntilReady s k, s.answers (k + 1) 7, ?_, by simp [State.answers]⟩
  simp [State.afterCode, pollUntilReady]

/-- An operation that faults is begun, and its poll loop faults. -/
theorem exec_fault {i : Instr} {s : State} {f : Fault} (h : exec i s = .fault f) : StopsWithoutOpcode s f := by
  obtain ⟨body, hexec, hbody⟩ := exec_eq_issue i
  rw [hexec] at h
  obtain ⟨-, -, -, hfault⟩ := issue_fault h
  rcases hbody with hnext | ⟨cap, t, hawait⟩
  · obtain ⟨t, ht⟩ := hnext (s.start i)
    cases ht.symm.trans hfault
  · rw [hawait] at hfault
    exact (State.awaitResponse_fault (State.setElapsed_elapsed _ _) hfault).congr rfl rfl

/-- A move of the caller faults only where the operation it issues does. -/
theorem callerMove_fault {m : CallerMove} {s : State} {f : Fault} (h : callerMove m s = .fault f) :
    StopsWithoutOpcode s f := by
  cases m with
  | issue w =>
    simp only [callerMove, issueWord] at h
    split at h
    · exact exec_fault h
    · cases h
  | supplyCmd _ | supplyRbuf _ | inspectCmd | inspectRbuf => cases h

/-- A step of an idle block faults only where a move of the caller does. -/
theorem step_fault_of_idle {s : State} {f : Fault} (hidle : s.phase = .idle) (h : step s = .fault f) :
    StopsWithoutOpcode s f := by
  rcases hport : s.port with _ | m
  · rcases hagenda : s.agenda with _ | ⟨m, ms⟩
    · rw [idleBlockWaits s hidle hport hagenda] at h
      cases h
    · rw [step_of_idle_agenda hidle hport hagenda] at h
      exact (callerMove_fault h).congr rfl rfl
  · rw [step_of_idle_port hidle hport] at h
    exact (callerMove_fault h).congr rfl rfl

/-- A busy block that faults was presented nothing: it refuses the caller (R40). -/
theorem port_of_busy_fault {s : State} {f : Fault} (hbusy : s.phase ≠ .idle) (h : step s = .fault f) : s.port = none := by
  rcases hport : s.port with _ | m
  · rfl
  · cases ((busyBlockRefusesCaller s hbusy).1 m hport).symm.trans h

/-! ### The statements -/

/-- Settles O47: an operation is refused for the reason `refusalOf` gives, and only READ_RESPONSE needs RBUF. -/
theorem refusedExactly : Obligations.RefusedExactly := by
  intro i s
  simp only [exec_refused_iff, refusalOf_eq_some_iff, lt_bufferNeed_iff]

/-- Settles O48: a resting block is idle, or in a wait whose counter is set. -/
theorem onlyFaultIsNoPendingOpcode : Obligations.OnlyFaultIsNoPendingOpcode := by
  rintro s f ⟨-, ⟨hidle, -⟩ | ⟨hpoll, -, cap, e, hop, he, -⟩⟩ h
  · exact step_fault_of_idle hidle h
  · have hport : s.port = none := port_of_busy_fault (by simp [hpoll]) h
    rw [step_waiting hpoll hport hop he] at h
    exact State.awaitResponse_fault he h

end Sys2Proof.Machine
end

section
/-! PROOFS. Reset, WAKE and the bounds of the waits (spec/70_reset_and_hazards.md): what every step keeps of the
configuration, the invariants at reset, and what each operation does at most on the bus before it ends. -/

namespace Sys2Proof.Machine

/-! ### Configuration (R117) -/

/-- The caller's moves do not reach the configuration. -/
theorem MoveTaken.ackRetries_eq {s s0 : State} (h : MoveTaken s s0) : s0.ackRetries = s.ackRetries := by
  rcases h with rfl | ⟨ms, -, rfl⟩ <;> rfl

theorem Supplied.ackRetries_eq {s0 t : State} (h : Supplied s0 t) : t.ackRetries = s0.ackRetries := by
  rcases h with ⟨bytes, rfl⟩ | ⟨bytes, rfl⟩ | rfl <;> rfl

/-- No step changes the configuration. -/
theorem step_ackRetries {s t : State} (h : step s = .next t) : t.ackRetries = s.ackRetries := by
  rcases step_next_cases h with ⟨-, s0, hmove, ⟨i, hexec⟩ | hsupplied⟩ | ⟨-, -, cap, b, e, -, he, hw⟩
  · exact (exec_leaves hexec).kept.ackRetries.trans hmove.ackRetries_eq
  · exact hsupplied.ackRetries_eq.trans hmove.ackRetries_eq
  · exact (State.awaitResponse_leaves he hw).kept.ackRetries

/-! ### WAKE (R120) -/

/-- WAKE from an accepting state makes its bracket and ends. -/
theorem exec_wake {s : State} (h : Accepting s) :
    exec .wake s = .next ((s.start .wake).wakeBracket.finish .okUnit) := by
  rw [exec, execWake, issue_of_accepting h rfl (Nat.zero_le _)]

theorem State.wakeBracket_trace (s : State) : s.wakeBracket.trace = s.trace ++ [.sel, .hold .wake, .rel] := by
  simp [State.wakeBracket]

/-! ### Polls and reads (R125) -/

/-- `events` are `n` polls, counted as brackets, as status requests and as bytes received. -/
structure Polls (events : List Event) (n : Nat) : Prop where
  sel : events.count .sel = n
  requests : events.count (.tx 0x02#8) = n
  received : events.countP receivesByte = n

/-- `events` are at most one bracket without a status request, which receives at most `n` bytes. -/
structure Reads (events : List Event) (n : Nat) : Prop where
  sel : events.count .sel ≤ 1
  requests : events.count (.tx 0x02#8) = 0
  received : events.countP receivesByte ≤ n

theorem Polls.thenReads {polled last : List Event} {m n polls : Nat} (h : Polls polled m) (hm : m ≤ polls)
    (hr : Reads last n) : PollsThenReads (polled ++ last) polls n :=
  ⟨polled, last, rfl, h.sel.trans_le hm, h.requests.trans_le hm, h.received.trans_le hm, hr.sel, hr.requests, hr.received⟩

theorem Polls.append {l l' : List Event} {m n : Nat} (h : Polls l m) (h' : Polls l' n) : Polls (l ++ l') (m + n) where
  sel := by rw [List.count_append, h.sel, h'.sel]
  requests := by rw [List.count_append, h.requests, h'.requests]
  received := by rw [List.countP_append, h.received, h'.received]

theorem polls_statusBracket (b : Byte) : Polls (statusBracket b) 1 := ⟨rfl, rfl, rfl⟩

theorem polls_notReadyRounds (bytes : List Byte) : Polls (notReadyRounds bytes) bytes.length := by
  induction bytes with
  | nil => exact ⟨rfl, rfl, rfl⟩
  | cons b bytes ih =>
    have slept : Polls [.sleep 1] 0 := ⟨rfl, rfl, rfl⟩
    rw [List.length_cons, Nat.add_comm]
    exact ((polls_statusBracket b).append slept).append ih

theorem polls_pollUntilReady (s : State) (k : Nat) : Polls (pollUntilReady s k) (k + 1) := by
  have h := (polls_notReadyRounds (s.answers 0 k)).append (polls_statusBracket (s.upcoming k))
  rwa [State.answers_length] at h

theorem reads_nil (n : Nat) : Reads [] n := ⟨Nat.zero_le _, rfl, Nat.zero_le _⟩

/-- The release of select is no bracket of its own. -/
theorem Reads.release {l : List Event} {n : Nat} (h : Reads l n) : Reads (l ++ [.rel]) n := by
  obtain ⟨hsel, hrequests, hreceived⟩ := h
  constructor <;> simpa [receivesByte]

theorem reads_openReadSection {bytes : List Byte} {n : Nat} (h : bytes.length ≤ n) : Reads (openReadSection bytes) n where
  sel := by simp [openReadSection, List.count_eq_zero]
  requests := by simp [openReadSection, List.count_eq_zero]
  received := by rw [openReadSection, List.countP_append, rx_received]; simpa [receivesByte] using h

theorem reads_ackBracket (bytes : List Byte) : Reads (ackBracket bytes) bytes.length where
  sel := by simp [ackBracket, List.count_eq_zero]
  requests := by simp [ackBracket, List.count_eq_zero]
  received := (ackBracket_received bytes).le

/-! ### The bounded waits (R125) -/

/-- WRITE_COMMAND after its frame polls at most `ACK_RETRIES` times and then reads the acknowledgment, if anything. -/
theorem CommandLeaves.pollsThenReads {v t : State} (h : CommandLeaves v t) :
    ∃ new, t.trace = v.trace ++ new ∧ PollsThenReads new v.ackRetries 6 := by
  cases h with
  | @acknowledged k hk _ _ | @invalidAck k hk _ _ =>
    exact ⟨pollUntilReady v k ++ ackBracket (v.answers (k + 1) 6), by simp [pollUntilReady],
      (polls_pollUntilReady v k).thenReads hk (reads_ackBracket (v.answers (k + 1) 6))⟩
  | timeout =>
    exact ⟨notReadyRounds (v.answers 0 v.ackRetries) ++ [], by simp,
      (polls_notReadyRounds _).thenReads (by simp) (reads_nil 6)⟩

/-- A bounded wait of READ_RESPONSE ends in its step, or faults there for want of a pending opcode; it polls at most `T + 1`
times and then makes one read section, if anything. -/
theorem State.awaitResponse_bounded {t e : Nat} {v : State} (cap : Nat) (ht : t ≠ 0) (he : v.elapsed = some e) :
    ∃ u new, ((v.awaitResponse cap t e = .next u ∧ u.phase = .idle) ∨
        v.awaitResponse cap t e = .fault (.noPendingOpcode u)) ∧
      u.trace = v.trace ++ new ∧ PollsThenReads new (t + 1) 262 := by
  have hcases := State.awaitResponse_cases cap t e v he
  rw [queriesPerStep, if_neg ht] at hcases
  rcases hcases with
    ⟨k, u, hk, h, hu⟩ | ⟨k, hk, -, h⟩ | ⟨k, hk, -, h⟩ | ⟨h0, -⟩
  · obtain ⟨n, hn, htrace, -⟩ := hu.events
    exact ⟨u, pollUntilReady v k ++ (openReadSection (v.answers (k + 1) n) ++ [.rel]), .inl ⟨h, hu.phase⟩,
      by simp [htrace, pollUntilReady],
      (polls_pollUntilReady v k).thenReads hk (reads_openReadSection (by simpa using hn)).release⟩
  · exact ⟨_, pollUntilReady v k ++ openReadSection (v.answers (k + 1) 7), .inr h,
      by simp [State.afterCode, pollUntilReady],
      (polls_pollUntilReady v k).thenReads hk (reads_openReadSection (by simp))⟩
  · exact ⟨_, notReadyRounds (v.answers 0 (k + 1)) ++ [], .inl ⟨h, rfl⟩, by simp,
      (polls_notReadyRounds _).thenReads (by rw [State.answers_length]; exact hk) (reads_nil 262)⟩
  · exact absurd h0 ht

/-! ### The statements -/

/-- Settles O41: the two waits by their outcomes, the other operations by their brackets. -/
theorem boundedWaitsEnd : Obligations.BoundedWaitsEnd := by
  intro s haccepting
  refine ⟨fun n h0 hn => ?_, fun cap b hcap hb => ?_, ?_, fun n hn => ?_, ?_, ?_⟩
  · have hexec := exec_writeCommand haccepting h0 hn
    have hleaves := exec_writeCommand_leaves hexec
    obtain ⟨new, htrace, hnew⟩ := hleaves.pollsThenReads
    rw [State.commandSent_trace] at htrace
    rw [(State.commandSent_kept _ _).ackRetries] at hnew
    exact ⟨_, new, hexec, hleaves.ended.phase, htrace, hnew⟩
  · rw [exec_readResponse haccepting hcap]
    exact State.awaitResponse_bounded cap.toNat (fun h => hb (BitVec.eq_of_toNat_eq h)) (State.setElapsed_elapsed _ _)
  · exact ⟨_, exec_isReady haccepting, rfl, by simp [statusBracket]⟩
  · have hexec := exec_writeFrame haccepting hn
    refine ⟨_, hexec, rfl, ?_⟩
    rw [exec_writeFrame_trace hexec]
    simp [frameBracket, Nat.add_assoc]
  · have hexec := exec_readAck haccepting
    refine ⟨_, hexec, rfl, ?_⟩
    rw [exec_readAck_trace hexec]
    simp [ackBracket]
  · refine ⟨_, exec_wake haccepting, rfl, ?_⟩
    rw [State.finish_trace, State.wakeBracket_trace]
    simp

/-- Settles O12: at reset the block waits, and no step changes `ACK_RETRIES`. -/
theorem resetValues : Obligations.ResetValues := by
  refine ⟨rfl, rfl, rfl, rfl, rfl, rfl, rfl, rfl, rfl, rfl, rfl, rfl, rfl, rfl, rfl, fun t h => ?_,
    fun s t => step_ackRetries⟩
  rw [idleBlockWaits State.reset rfl rfl rfl] at h
  cases h
  exact ⟨rfl, rfl⟩

/-- Settles O42, from the state WAKE leaves. -/
theorem wakeResult : Obligations.WakeResult :=
  ⟨by decide, fun _ haccepting => ⟨_, exec_wake haccepting, rfl, State.wakeBracket_trace _, rfl, rfl, rfl⟩⟩

/-- Settles O55: the block is idle with select released, its arrays are empty and no event has happened. -/
theorem resetMeetsInvariants : Obligations.ResetMeetsInvariants :=
  ⟨⟨rfl, .inl ⟨rfl, rfl⟩⟩, ⟨rfl, rfl, nofun⟩, rfl⟩

end Sys2Proof.Machine
end
